-- ==== Sys2Proof/Word.lean ====
section
/-! DEFINITION. The fixed widths of the block (`spec/00_scope.md` R7). -/

namespace Sys2Proof

/-- A byte: 8 bits (R7). Sensor register addresses and host offsets have this width too. -/
abbrev Byte := BitVec 8

/-- A host register or a command word: 32 bits (R7, R61). -/
abbrev Word := BitVec 32

/-- A device address: 7 bits (R7). -/
abbrev DevAddr := BitVec 7

end Sys2Proof
end

