-- ==== Sys2Proof/Config.lean ====
section
/-! DEFINITION. The instantiation parameters of the block (`spec/00_scope.md` R6): fixed when the block is
instantiated, read by the rules, written by none. -/

namespace Sys2Proof

/-- The three parameters of R6; no other parameter exists. A machine's state carries them, so that every statement
about a state holds for every choice of them. -/
structure Config where
  /-- `P_DEVADDR`, the 7-bit address of the sensor, host-visible as `CFG` (R32, R39). -/
  devAddr : DevAddr
  /-- `P_FCLK_HZ`, the frequency of `clk` in hertz (OPEN, `spec/92_eei_decisions.md` D9). No rule reads it but the
  production constraint. -/
  fclkHz : Nat
  /-- `P_CONV_WAIT_CYCLES`, the conversion wait in ticks. -/
  convWaitCycles : Nat
  deriving DecidableEq, Repr

/-- `P_DEVADDR`'s default (R6). -/
def Config.defaultDevAddr : DevAddr := 0x60#7

/-- `P_FCLK_HZ` is OPEN (R6, D9): a free value, a positive natural. Log entry 2. -/
opaque Config.openFclkHz : ℕ+

/-- `P_CONV_WAIT_CYCLES` has no default (R6, D9): a free value. Log entry 2. -/
opaque Config.openConvWaitCycles : Nat

/-- The parameters of the instance that `State.reset` describes: the default device address, and the two parameters
without a default left free. -/
def Config.atReset : Config :=
  { devAddr := Config.defaultDevAddr
    fclkHz := (Config.openFclkHz : Nat)
    convWaitCycles := Config.openConvWaitCycles }

end Sys2Proof
end

