-- ==== Sys2Proof/Syntax.lean ====
section
/-! DEFINITION. The command set (`spec/30_encoding.md`): the two commands of `spec/opcode_table.json`, and the
assembly line a person writes for one. -/

namespace Sys2Proof

/-- The commands of the block, one constructor per row of `spec/opcode_table.json` (R62).
Every term is a command the block knows: the operand widths are those of the encoding (R65), and an address outside
the writable range is still a `SETREG` (R64). -/
inductive Instr where
  /-- `MEASURE`, the hardware form of `getPressTemp` (R63, R94). -/
  | measure
  /-- `SETREG addr, value`, the hardware form of `setRegister` (R64, R86). -/
  | setreg (addr value : Byte)
  deriving DecidableEq, Repr

/-- One assembly line as written, its operands still plain numbers (R70). -/
inductive AsmCommand where
  | measure
  | setreg (addr value : Nat)
  deriving DecidableEq, Repr

/-- Why an assembly line is turned away (R70). Each reason is safe: no word is emitted. -/
inductive AsmError where
  /-- The line's first word is neither `MEASURE` nor `SETREG`. -/
  | unknownMnemonic
  /-- Operands are missing, or there are too many of them. -/
  | operandCount
  /-- An operand is no decimal number and no hexadecimal number with the prefix `0x`. -/
  | malformedNumber
  /-- An operand lies outside 0 to 255: an assembly error, never truncated. -/
  | operandOutOfRange
  deriving DecidableEq, Repr

end Sys2Proof
end

