-- ==== Sys2Proof/WellFormed.lean ====
section
/-! DEFINITION. The static checks the spec puts on what is written down before the machine runs: the operands of an
assembly line (R70) and the instantiation parameters (R6). A term of `Instr` needs no check: its operand widths are
those of the encoding, and every address and value is a legal operand (R64, R65). -/

namespace Sys2Proof

/-- "An operand outside 0 to 255 is an assembly error, never truncated" (R70). -/
def AsmCommand.wellFormed : AsmCommand → Bool
  | .measure => true
  | .setreg addr value => decide (addr ≤ 255) && decide (value ≤ 255)

/-- `P_FCLK_HZ` is a positive natural (R6); the other parameters may take any value of their type. -/
def Config.wellFormed (c : Config) : Bool :=
  decide (0 < c.fclkHz)

/-- The production constraint `P_CONV_WAIT_CYCLES >= ceil(0.040 * P_FCLK_HZ)` (R6), written without the division:
`n >= ceil(40 f / 1000)` exactly when `1000 n >= 40 f`. A test instance need not meet it. -/
def Config.production (c : Config) : Bool :=
  c.wellFormed && decide (40 * c.fclkHz ≤ 1000 * c.convWaitCycles)

end Sys2Proof
end

