-- ==== Sys2Proof/Decode.lean ====
section
/-! DEFINITION. The command decoder, its inverse and the assembler (`spec/30_encoding.md`). -/

namespace Sys2Proof

/-- `OPC`, bits 7:0 of a command word (R61). -/
def opcOf (w : Word) : Byte := w.extractLsb' 0 8

/-- `ADDR`, bits 15:8 of a command word (R61). -/
def addrOf (w : Word) : Byte := w.extractLsb' 8 8

/-- `DATA`, bits 23:16 of a command word (R61). -/
def dataOf (w : Word) : Byte := w.extractLsb' 16 8

/-- `RSVD`, bits 31:24 of a command word (R61). -/
def rsvdOf (w : Word) : Byte := w.extractLsb' 24 8

/-- Why a word is no command: the three cases of R66. -/
inductive IllegalWord where
  /-- `OPC` is 0x00 or 0x03 to 0xFF. -/
  | unknownOpcode
  /-- `OPC` is 0x01 and a bit of `w[31:8]` is set. -/
  | measureReservedBits
  /-- `OPC` is 0x02 and a bit of `RSVD` is set. -/
  | setregReservedBits
  deriving DecidableEq, Repr

/-- What a command word stands for (R69). -/
inductive Decoded where
  | command (i : Instr)
  | illegal (why : IllegalWord)
  deriving DecidableEq, Repr

/-- The name of the rule an illegal word breaks (R66); the opcode decides. -/
def whyIllegal (w : Word) : IllegalWord :=
  if opcOf w = 0x01#8 then .measureReservedBits
  else if opcOf w = 0x02#8 then .setregReservedBits
  else .unknownOpcode

/-- The decoding function, total on all `2^32` words (R69). -/
def decode (w : Word) : Decoded :=
  if w = 0x00000001#32 then .command .measure
  else if w &&& 0xFF0000FF#32 = 0x00000002#32 then .command (.setreg (addrOf w) (dataOf w))
  else .illegal (whyIllegal w)

/-- Whether a word decodes to a command. -/
def Decoded.isCommand : Decoded → Bool
  | .command _ => true
  | .illegal _ => false

/-- The command a decoding gives, if it gives one. -/
def Decoded.toOption : Decoded → Option Instr
  | .command i => some i
  | .illegal _ => none

/-- The inverse of `decode` on the commands (R69). -/
def encode : Instr → Word
  | .measure => 0x00000001#32
  | .setreg addr value => (value.setWidth 32 <<< 16) ||| (addr.setWidth 32 <<< 8) ||| 0x02#32

/-- The command word whose low `nbits` bits are those of `w`; every bit above is 0. A command is one whole 32-bit
word (R68), and no rule observes a byte order in it (R45). -/
def tableWord (nbits w : Nat) : Word := BitVec.ofNat 32 (w % 2 ^ nbits)

/-- The command the decoder reads from a row of the opcode table. -/
def decodeTableWord (nbits w : Nat) : Option Instr := (decode (tableWord nbits w)).toOption

/-- The assembler emits `encode` of the command; an operand outside 0 to 255 is an error (R70). -/
def assemble (c : AsmCommand) : Except AsmError Word :=
  if c.wellFormed then
    match c with
    | .measure => .ok (encode .measure)
    | .setreg addr value => .ok (encode (.setreg (BitVec.ofNat 8 addr) (BitVec.ofNat 8 value)))
  else .error .operandOutOfRange

/-- The value of a decimal digit. -/
def decDigit (c : Char) : Option Nat :=
  if '0'.toNat ≤ c.toNat ∧ c.toNat ≤ '9'.toNat then some (c.toNat - '0'.toNat) else none

/-- The value of a hexadecimal digit, in either case (log entry 9). -/
def hexDigit (c : Char) : Option Nat :=
  if 'A'.toNat ≤ c.toNat ∧ c.toNat ≤ 'F'.toNat then some (c.toNat - 'A'.toNat + 10)
  else if 'a'.toNat ≤ c.toNat ∧ c.toNat ≤ 'f'.toNat then some (c.toNat - 'a'.toNat + 10)
  else decDigit c

/-- A number read digit by digit in a base, after the digits already read. -/
def readDigits (base : Nat) (digit : Char → Option Nat) : Nat → List Char → Option Nat
  | acc, [] => some acc
  | acc, c :: cs =>
    match digit c with
    | some d => readDigits base digit (acc * base + d) cs
    | none => none

/-- An operand: a number in decimal, or in hexadecimal with the prefix `0x` (R70). -/
def readNumber : List Char → Option Nat
  | [] => none
  | '0' :: 'x' :: [] => none
  | '0' :: 'x' :: c :: cs => readDigits 16 hexDigit 0 (c :: cs)
  | c :: cs => readDigits 10 decDigit 0 (c :: cs)

/-- The text without the spaces around it. -/
def trimSpaces (cs : List Char) : List Char :=
  ((cs.dropWhile (· == ' ')).reverse.dropWhile (· == ' ')).reverse

/-- `<addr>, <value>`: the two operands of a `SETREG` line (R70). -/
def parseSetregOperands (cs : List Char) : Except AsmError AsmCommand :=
  match cs.dropWhile (· != ',') with
  | [] => .error .operandCount
  | _ :: value =>
    match readNumber (trimSpaces (cs.takeWhile (· != ','))), readNumber (trimSpaces value) with
    | some a, some v => .ok (.setreg a v)
    | _, _ => .error .malformedNumber

/-- One line of assembly text (R70): `MEASURE`, or `SETREG <addr>, <value>`, the mnemonic in capitals.
Spaces around the parts are free (log entry 9). -/
def parseAsm (line : List Char) : Except AsmError AsmCommand :=
  let body := trimSpaces line
  let mnemonic := body.takeWhile (· != ' ')
  let operands := trimSpaces (body.dropWhile (· != ' '))
  if mnemonic = ['M', 'E', 'A', 'S', 'U', 'R', 'E'] then
    if operands = [] then .ok .measure else .error .operandCount
  else if mnemonic = ['S', 'E', 'T', 'R', 'E', 'G'] then parseSetregOperands operands
  else .error .unknownMnemonic

/-- The assembler on a line of text: parse, check the operands, emit the word (R70). -/
def assembleLine (line : List Char) : Except AsmError Word :=
  match parseAsm line with
  | .ok c => assemble c
  | .error e => .error e

end Sys2Proof
end

