-- ==== Sys2Proof/Machine/State.lean ====
section
/-! DEFINITION. The architectural state of the block (`spec/10_state.md`), the events its agents put to it, and the
reasons a step can stop. -/

namespace Sys2Proof.Machine

/-- `st`, 3 bits: the sequencer state, the block's program counter (R15). The eighth code is the unused one. -/
inductive SeqState where
  /-- 0: no command running; a command may be accepted. -/
  | idle
  /-- 1: coefficient range read outstanding. -/
  | coef
  /-- 2: conversion-trigger write outstanding. -/
  | conv
  /-- 3: counting the conversion wait. -/
  | delay
  /-- 4: ADC range read outstanding. -/
  | adc
  /-- 5: computing the measurement. -/
  | comp
  /-- 6: guarded register write outstanding. -/
  | setwr
  /-- 7: never entered by any rule; a model that finds it stops with a fault (`spec/93_implementation_defined.md` I8). -/
  | unused
  deriving DecidableEq, Repr

/-- `req_kind` of a transport request (R73). -/
inductive ReqKind where
  /-- 0: write-only. -/
  | write
  /-- 1: write the register address, then read. -/
  | writeRead
  deriving DecidableEq, Repr

/-- A transport request (R73 to R75). -/
structure Request where
  kind : ReqKind
  /-- The device address, always `CFG.DEVADDR`. -/
  dev : DevAddr
  /-- The bytes written, the first one sent first. -/
  wbytes : List Byte
  /-- The number of bytes to read. -/
  rlen : Nat
  deriving DecidableEq, Repr

/-- The outcome of a transaction (R9, R74, R75). -/
inductive TxnOutcome where
  | ok (bytes : List Byte)
  | fail
  deriving DecidableEq, Repr

/-- One entry of the observation record `txlog` (R14). -/
inductive TxEntry where
  | issued (q : Request)
  | outcome (o : TxnOutcome)
  deriving DecidableEq, Repr

/-- The transport's response signals at the edge where `rsp_valid` is 1 (R73): `rsp_ok`, and `rsp_rdata` with byte
`i` in bits `[8i+7:8i]`. Every value of the two is a possible answer: the draw of R76. -/
structure Response where
  ok : Bool
  rdata : BitVec 64
  deriving DecidableEq, Repr

/-- A host access (R44): an 8-bit offset, a data word for a write, and a 4-bit byte enable. -/
inductive HostAccess where
  | write (off : Byte) (data : Word) (be : BitVec 4)
  | read (off : Byte) (be : BitVec 4)
  deriving DecidableEq, Repr

/-- The block's answer on the host bus to one access (R44): the data of a read, and `herr`. -/
inductive HostAnswer where
  | written (herr : Bool)
  | data (word : Word) (herr : Bool)
  deriving DecidableEq, Repr

/-- An event on the sequencer's side of the block. -/
inductive SeqEvent where
  /-- `Tick`, one internal step of the sequencer (R10). -/
  | tick
  /-- `req_ready` at an edge: the transport takes the request that is presented (R73). -/
  | ready
  /-- `TxnResponse`, the transport's answer to the outstanding request (R76). -/
  | response (r : Response)
  deriving DecidableEq, Repr

/-- One atomic event (R10, and `spec/92_eei_decisions.md` D20 for two at one clock edge). -/
inductive Event where
  /-- `HostWrite` or `HostRead` alone. -/
  | host (a : HostAccess)
  /-- An event of the sequencer's side alone. -/
  | seq (e : SeqEvent)
  /-- A host access and an event of the sequencer's side at one clock edge (D20). -/
  | edge (a : HostAccess) (e : SeqEvent)
  /-- A rising edge with `rst = 1`, with or without a host access on it (R122). -/
  | rst (a : Option HostAccess)
  deriving DecidableEq, Repr

/-- Every piece of state the spec gives the block (R13 to R42), and the model's own record of what its agents do. -/
structure State where
  /-- The instantiation parameters; `cfg.devAddr` is `CFG.DEVADDR` (R32). -/
  cfg : Config
  /-- `st` (R15). -/
  st : SeqState
  /-- `A0_RAW` (R19). -/
  a0Raw : BitVec 16
  /-- `B1_RAW` (R20). -/
  b1Raw : BitVec 16
  /-- `B2_RAW` (R21). -/
  b2Raw : BitVec 16
  /-- `C12_RAW` (R22). -/
  c12Raw : BitVec 14
  /-- `PADC` (R23). -/
  padc : BitVec 10
  /-- `TADC` (R24). -/
  tadc : BitVec 10
  /-- `L_ADDR` (R25). -/
  lAddr : Byte
  /-- `L_DATA` (R25). -/
  lData : Byte
  /-- `WCNT` (R26): a counter wide enough for `P_CONV_WAIT_CYCLES`, so a count. -/
  wcnt : Nat
  /-- `DONE` (R27). -/
  done : Bool
  /-- `ERR` (R27). -/
  err : Bool
  /-- `VALID` (R27). -/
  valid : Bool
  /-- `OVERRUN` (R27). -/
  overrun : Bool
  /-- `ERRCODE` (R28). -/
  errcode : BitVec 4
  /-- `ERRSTAGE` (R29). -/
  errstage : BitVec 4
  /-- `PRESS` (R30), two's complement. -/
  press : Word
  /-- `TEMP` (R31), two's complement. -/
  temp : Word
  /-- The outstanding transport request (R17, R41). -/
  req : Option Request
  /-- `req_valid` (R73): the outstanding request is presented and not yet taken. -/
  reqValid : Bool
  /-- `txlog` (R14), the oldest entry first: model bookkeeping. -/
  txlog : List TxEntry
  /-- The answer to the last host access, on the host bus (R44): an output, not a register. The model's own field. -/
  hostAnswer : Option HostAnswer
  /-- The events the agents will put to the block, the next one first. The model's own field: the input of the step
  (log entry 1). -/
  inputs : List Event
  deriving DecidableEq, Repr

/-- Why the machine stops with a fault. Both are raised only in states that no run from reset reaches, and both are
safe: the model stops where the spec gives no behaviour. -/
inductive Fault where
  /-- Raised by the step when it finds `st` = 7, an `ERRCODE` above 4 or an `ERRSTAGE` above 5 (I8). Safe. -/
  | reservedCode
  /-- Raised at a transport response when a request is outstanding and `st` is no transaction state, so that no
  handler is there to take it (against the invariant R17). Safe. -/
  | requestWithoutHandler
  deriving DecidableEq, Repr

/-- Why the machine refuses a command. -/
inductive Refusal where
  /-- Raised by `exec` for a command that has no meaning yet. Safe. No arm raises it: both commands have one. -/
  | notModelled (mnemonic : String)
  deriving DecidableEq, Repr

/-- The block right after reset (R41, R123), waiting for a command; no event is placed (log entry 1). -/
def State.reset : State :=
  { cfg := Config.atReset
    st := .idle
    a0Raw := 0, b1Raw := 0, b2Raw := 0, c12Raw := 0, padc := 0, tadc := 0
    lAddr := 0, lData := 0
    wcnt := 0
    done := false, err := false, valid := false, overrun := false
    errcode := 0, errstage := 0
    press := 0, temp := 0
    req := none, reqValid := false
    txlog := []
    hostAnswer := none
    inputs := [] }

end Sys2Proof.Machine
end

