-- ==== Sys2Proof/Machine/Operands.lean ====
section
/-! DEFINITION. Byte assembly, signed decode and field extraction (`spec/41_signed_decode.md`), and the bytes of a
transport response (`spec/40_register_io.md` R73). -/

namespace Sys2Proof.Machine

/-- Big-endian assembly of two bytes (R88): `{hi, lo}`. -/
def be16 (hi lo : Byte) : BitVec 16 := hi ++ lo

/-- The signed integer a `w`-bit pattern stands for in two's complement (R89). Its domain is exactly the `w`-bit
patterns (R90), which the type says. -/
def toSigned {w : Nat} (u : BitVec w) : Int :=
  if u.getLsbD (w - 1) then (u.toNat : Int) - 2 ^ w else (u.toNat : Int)

/-- The `n`-bit two's-complement pattern of a signed integer, `sext_n` (R8). -/
def sext (n : Nat) (x : Int) : BitVec n := BitVec.ofInt n x

/-- `C12_RAW = be16(byte6, byte7) >> 2`, 14 bits: `{byte6, byte7[7:2]}` (R91). The two low bits of the pair are the
padding (`spec/90_conflicts.md` C6). -/
def c12Field (byte6 byte7 : Byte) : BitVec 14 := (be16 byte6 byte7 >>> 2).setWidth 14

/-- `be16(hi, lo) >> 6`, 10 bits: `{hi, lo[7:6]}`, for `PADC` and `TADC` (R92). -/
def adcField (hi lo : Byte) : BitVec 10 := (be16 hi lo >>> 6).setWidth 10

/-- Byte `i` of a response: bits `[8i+7:8i]` of `rsp_rdata` (R73). -/
def Response.byte (r : Response) (i : Nat) : Byte := r.rdata.extractLsb' (8 * i) 8

/-- The outcome a response delivers to a request of `rlen` bytes (R73, R74): exactly `rlen` bytes (D30), the other
bits ignored; or `fail`. -/
def Response.outcome (r : Response) (rlen : Nat) : TxnOutcome :=
  if r.ok then .ok ((List.range rlen).map r.byte) else .fail

/-- Bytes laid out as `rsp_rdata` holds them: byte `i` in bits `[8i+7:8i]` (R73). -/
def packBytes (bytes : List Byte) : BitVec 64 :=
  bytes.foldr (fun b acc => (acc <<< 8) ||| b.setWidth 64) 0

/-- The response signals that deliver an outcome (R73); the bits no byte fills are 0, and are ignored. -/
def TxnOutcome.response : TxnOutcome → Response
  | .ok bytes => { ok := true, rdata := packBytes bytes }
  | .fail => { ok := false, rdata := 0 }

end Sys2Proof.Machine
end

