-- ==== Sys2Proof/Machine/Compensation.lean ====
section
/-! DEFINITION. The compensation datapath (`spec/42_measure.md` R101 to R105), exact in integers: no input is
rejected, nothing saturates (R103). -/

namespace Sys2Proof.Machine

/-- `RNE(num / den)` for `den > 0` (R8, R104): the nearest integer, a tie going to the even one. -/
def rne (num den : Int) : Int :=
  let q := num / den
  let r := num % den
  if den < 2 * r then q + 1
  else if 2 * r < den then q
  else q + q % 2

/-- `A0_Q22` (R101). -/
def a0Q22 (a0 : Int) : Int := a0 * 2 ^ 19

/-- `B1_Q22` (R101). -/
def b1Q22 (b1 : Int) : Int := b1 * 2 ^ 9

/-- `B2_Q22` (R101). -/
def b2Q22 (b2 : Int) : Int := b2 * 2 ^ 8

/-- `C12_Q22` (R101). -/
def c12Q22 (c12 : Int) : Int := c12

/-- `P22`, the compensated pressure in Q22 (R102), from the decoded coefficients and the ADC counts. -/
def p22Of (a0 b1 b2 c12 padc tadc : Int) : Int :=
  let sum := b1Q22 b1 + c12Q22 c12 * tadc
  a0Q22 a0 + sum * padc + b2Q22 b2 * tadc

/-- The raw inputs of the datapath: the six capture registers. -/
structure RawInputs where
  a0Raw : BitVec 16
  b1Raw : BitVec 16
  b2Raw : BitVec 16
  c12Raw : BitVec 14
  padc : BitVec 10
  tadc : BitVec 10
  deriving DecidableEq, Repr

/-- `P22` from the raw inputs: the coefficients are sign-extended (R93), the ADC counts are unsigned (R92). -/
def RawInputs.p22 (x : RawInputs) : Int :=
  p22Of (toSigned x.a0Raw) (toSigned x.b1Raw) (toSigned x.b2Raw) (toSigned x.c12Raw) x.padc.toNat x.tadc.toNat

/-- `P100`, the pressure in hundredths of a kPa (R104). -/
def p100Of (p22 : Int) : Int := rne (6500 * p22) (1023 * 2 ^ 22) + 5000

/-- `T10`, the temperature in tenths of a degree Celsius (R105); it depends on `TADC` alone. -/
def t10Of (tadc : BitVec 10) : Int := rne (200 * (498 - (tadc.toNat : Int))) 107 + 250

/-- What a `MEASURE` writes to `PRESS` (R100). -/
def RawInputs.pressWord (x : RawInputs) : Word := sext 32 (p100Of x.p22)

/-- What a `MEASURE` writes to `TEMP` (R100). -/
def RawInputs.tempWord (x : RawInputs) : Word := sext 32 (t10Of x.tadc)

/-- The capture registers as the datapath reads them (R100). -/
def State.rawInputs (s : State) : RawInputs :=
  { a0Raw := s.a0Raw, b1Raw := s.b1Raw, b2Raw := s.b2Raw, c12Raw := s.c12Raw, padc := s.padc, tadc := s.tadc }

end Sys2Proof.Machine
end

