-- ==== Sys2Proof/Machine/Flags.lean ====
section
/-! DEFINITION. The status flags and the error record (`spec/10_state.md` R27 to R29, R35). -/

namespace Sys2Proof.Machine

/-- The code of a sequencer state (R15). -/
def SeqState.code : SeqState → BitVec 3
  | .idle => 0
  | .coef => 1
  | .conv => 2
  | .delay => 3
  | .adc => 4
  | .comp => 5
  | .setwr => 6
  | .unused => 7

/-- `ERRCODE` 0: no error (R28). -/
def errNone : BitVec 4 := 0
/-- `ERRCODE` 1: `IOError` on a read transaction (R28). -/
def errIoRead : BitVec 4 := 1
/-- `ERRCODE` 2: `IOError` on a write transaction (R28). -/
def errIoWrite : BitVec 4 := 2
/-- `ERRCODE` 3: `SETREG` with an address outside the writable range (R28). -/
def errInvalidArgument : BitVec 4 := 3
/-- `ERRCODE` 4: a word that encodes no command (R28). -/
def errIllegalCommand : BitVec 4 := 4

/-- `ERRSTAGE` 0: no error (R29). -/
def stageNone : BitVec 4 := 0
/-- `ERRSTAGE` 1: rejected at acceptance (R29). -/
def stageDecode : BitVec 4 := 1
/-- `ERRSTAGE` 2: the coefficient range read failed (R29). -/
def stageCoefRead : BitVec 4 := 2
/-- `ERRSTAGE` 3: the conversion-trigger write failed (R29). -/
def stageConvWrite : BitVec 4 := 3
/-- `ERRSTAGE` 4: the ADC range read failed (R29). -/
def stageAdcRead : BitVec 4 := 4
/-- `ERRSTAGE` 5: the `SETREG` write failed (R29). -/
def stageSetregWrite : BitVec 4 := 5

/-- `BUSY`, `st != IDLE`: not a stored bit (R27). -/
def State.busy (s : State) : Bool := decide (s.st ≠ .idle)

/-- No reserved code is held: `st` is not 7, `ERRCODE` is at most 4, `ERRSTAGE` is at most 5 (I8). -/
def State.codesLegal (s : State) : Bool :=
  decide (s.st ≠ .unused) && decide (s.errcode ≤ 4) && decide (s.errstage ≤ 5)

/-- The `STATUS` word (R35), its fields from bit 31 down. -/
def State.statusWord (s : State) : Word :=
  0#16 ++ s.errstage ++ s.errcode ++ 0#3 ++ BitVec.ofBool s.overrun ++ BitVec.ofBool s.valid ++
    BitVec.ofBool s.err ++ BitVec.ofBool s.done ++ BitVec.ofBool s.busy

/-- The clearing of flags and error record at the acceptance of any command (R84). -/
def State.clearRecord (s : State) : State :=
  { s with done := false, err := false, errcode := errNone, errstage := stageNone, overrun := false }

/-- `OVERRUN <- 1` (R83). -/
def State.setOverrun (s : State) : State := { s with overrun := true }

/-- `VALID <- 0`, at the acceptance of a `MEASURE` (R95). -/
def State.clearValid (s : State) : State := { s with valid := false }

/-- `st <- IDLE` and `DONE <- 1`: a command ends (R87, R100). -/
def State.finish (s : State) : State := { s with st := .idle, done := true }

end Sys2Proof.Machine
end

