-- ==== Sys2Proof/Machine/Ops.lean ====
section
/-! DEFINITION. The named operations over the block's state: the register I/O primitives and the transport port
(`spec/40_register_io.md` R73 to R82), the host register file (`spec/20_memory.md` R44, `spec/10_state.md` R33), the
abort (`spec/60_exceptions.md` R112) and the acceptance of a command (R83, R84). -/

namespace Sys2Proof.Machine

/-! ### The sensor register map (R48, R49) -/

/-- `regPadcMSB` (R48). -/
def regPadcMSB : Byte := 0x00
/-- `regTadcLSB` (R48). -/
def regTadcLSB : Byte := 0x03
/-- `regA0MSB` (R48). -/
def regA0MSB : Byte := 0x04
/-- `regC12LSB` (R48). -/
def regC12LSB : Byte := 0x0B
/-- `regConvert`, the conversion trigger (R48). -/
def regConvert : Byte := 0x12
/-- The last register a `SETREG` may write (R49); the first is 0x00, which every unsigned address meets. -/
def lastWritable : Byte := 0x02

/-! ### Requests -/

/-- `TxnWriteRead(dev, reg, n)` (R74). -/
def txnWriteRead (dev : DevAddr) (reg : Byte) (n : Nat) : Request :=
  { kind := .writeRead, dev := dev, wbytes := [reg], rlen := n }

/-- `TxnWrite(dev, [b0, b1])` (R75). -/
def txnWrite (dev : DevAddr) (b0 b1 : Byte) : Request :=
  { kind := .write, dev := dev, wbytes := [b0, b1], rlen := 0 }

/-- `readRegister(addr)` (R79): no command issues it. -/
def readRegister (dev : DevAddr) (addr : Byte) : Request := txnWriteRead dev addr 1

/-- `readRegisterRange(start, end)` (R51, R80): `end - start + 1` bytes. -/
def readRegisterRange (dev : DevAddr) (first last : Byte) : Request :=
  txnWriteRead dev first (last.toNat - first.toNat + 1)

/-- `writeRegister(addr, value)` (R81). -/
def writeRegister (dev : DevAddr) (addr value : Byte) : Request := txnWrite dev addr value

/-- `req_wlen`, the number of bytes written (R73). -/
def Request.wlen (q : Request) : Nat := q.wbytes.length

/-- Byte `j` of `req_wdata`, the bits `[8j+7:8j]`; none where the request writes no such byte (R73). -/
def Request.wdataByte (q : Request) (j : Nat) : Option Byte := q.wbytes[j]?

/-- The request on the port while `req_valid` is 1 (R73). -/
def State.presented (s : State) : Option Request := if s.reqValid then s.req else none

/-- The issue of a request: it is presented and outstanding, and recorded in `txlog` (R14, R73). -/
def State.issue (q : Request) (s : State) : State :=
  { s with req := some q, reqValid := true, txlog := s.txlog ++ [.issued q] }

/-- `req_valid` falls once the transport has taken the request (R73). -/
def State.taken (s : State) : State := { s with reqValid := false }

/-- The outstanding request is answered: nothing is outstanding, and the outcome is recorded (R14, R76). -/
def State.settle (o : TxnOutcome) (s : State) : State :=
  { s with req := none, reqValid := false, txlog := s.txlog ++ [.outcome o] }

/-! ### Errors -/

/-- `Abort(code, stage)` (R112), the one way an error is taken: the command ends and its kind and stage are recorded.
There is no saved program counter and no return instruction (R115): the record stands until `State.clearRecord`. -/
def State.abort (code stage : BitVec 4) (s : State) : State :=
  { s with st := .idle, done := true, err := true, errcode := code, errstage := stage }

/-! ### Acceptance -/

/-- A command write (R83, R84): while `BUSY` it only sets `OVERRUN`; else the record is cleared and the command's
own acceptance runs, all in the one event. -/
def accept (k : State → State) (s : State) : State :=
  if s.busy then s.setOverrun else k s.clearRecord

/-! ### The host register file -/

/-- `ADC_RAW` (R36). -/
def State.adcRawWord (s : State) : Word := 0#6 ++ s.tadc ++ 0#6 ++ s.padc

/-- `COEF0` (R37). -/
def State.coef0Word (s : State) : Word := s.b1Raw ++ s.a0Raw

/-- `COEF1` (R38). -/
def State.coef1Word (s : State) : Word := 0#2 ++ s.c12Raw ++ s.b2Raw

/-- `CFG` (R39). -/
def State.cfgWord (s : State) : Word := 0#25 ++ s.cfg.devAddr

/-- The word a legal host read returns (R33, R34, R40). -/
def State.hostReg (off : Byte) (s : State) : Word :=
  if off = 0x04 then s.statusWord
  else if off = 0x08 then s.press
  else if off = 0x0C then s.temp
  else if off = 0x10 then s.cfgWord
  else if off = 0x14 then s.adcRawWord
  else if off = 0x18 then s.coef0Word
  else if off = 0x1C then s.coef1Word
  else 0

/-- The offset and the byte enables of an access. -/
def HostAccess.off : HostAccess → Byte
  | .write off _ _ => off
  | .read off _ => off

/-- The byte enables of an access. -/
def HostAccess.be : HostAccess → BitVec 4
  | .write _ _ be => be
  | .read _ be => be

/-- An access is legal when `off[1:0] = 0` and `be = 0b1111` (R44). -/
def HostAccess.legal (a : HostAccess) : Bool :=
  decide (a.off.extractLsb' 0 2 = 0#2) && decide (a.be = 0b1111#4)

/-- The answer on the host bus (R44, R110): `herr` says that the access is illegal, and an illegal read returns 0. -/
def State.answerTo (a : HostAccess) (s : State) : HostAnswer :=
  match a with
  | .write _ _ _ => .written (!a.legal)
  | .read off _ => if a.legal then .data (s.hostReg off) false else .data 0 true

/-- The answer to an access is put on the host bus. -/
def State.answer (a : HostAccess) (s : State) : State := { s with hostAnswer := some (s.answerTo a) }

end Sys2Proof.Machine
end

