-- ==== Sys2Proof/Machine/Measure.lean ====
section
/-! DEFINITION. `MEASURE` (`spec/42_measure.md` R94): its acceptance, and the handler of each later event of its
read sequence (R95 to R100). A response handler runs on the state whose request has just been settled. -/

namespace Sys2Proof.Machine

/-- `readRegisterRange(regA0MSB, regC12LSB)`: the 8 coefficient bytes in one transaction (R95). -/
def coefRequest (dev : DevAddr) : Request := readRegisterRange dev regA0MSB regC12LSB

/-- `writeRegister(regConvert, 0x00)`: the conversion trigger (R96). -/
def convRequest (dev : DevAddr) : Request := writeRegister dev regConvert 0x00

/-- `readRegisterRange(regPadcMSB, regTadcLSB)`: the 4 ADC bytes in one transaction (R98). -/
def adcRequest (dev : DevAddr) : Request := readRegisterRange dev regPadcMSB regTadcLSB

/-- `MeasureAccept` (R95). -/
def measureAccept (s : State) : State :=
  State.issue (coefRequest s.cfg.devAddr) { s.clearValid with st := .coef }

/-- The meaning of `MEASURE` at the host write that gives the command (R84, R94, R95). -/
def execMeasure (s : State) : Host.Outcome State Fault Refusal := .next (accept measureAccept s)

/-- The four raw coefficients are written from the 8 bytes of the response (R96). -/
def State.captureCoef (r : Response) (s : State) : State :=
  { s with
    a0Raw := be16 (r.byte 0) (r.byte 1)
    b1Raw := be16 (r.byte 2) (r.byte 3)
    b2Raw := be16 (r.byte 4) (r.byte 5)
    c12Raw := c12Field (r.byte 6) (r.byte 7) }

/-- The coefficient response, in `COEF` (R96). -/
def coefResponse (r : Response) (s : State) : State :=
  if r.ok then State.issue (convRequest s.cfg.devAddr) { s.captureCoef r with st := .conv }
  else s.abort errIoRead stageCoefRead

/-- The conversion-trigger response, in `CONV` (R97). -/
def convResponse (r : Response) (s : State) : State :=
  if r.ok then { s with wcnt := s.cfg.convWaitCycles, st := .delay }
  else s.abort errIoWrite stageConvWrite

/-- One `Tick` of the conversion wait, in `DELAY` (R98). -/
def delayTick (s : State) : State :=
  if s.wcnt ≠ 0 then { s with wcnt := s.wcnt - 1 }
  else State.issue (adcRequest s.cfg.devAddr) { s with st := .adc }

/-- The two raw ADC values are written from the 4 bytes of the response (R99). -/
def State.captureAdc (r : Response) (s : State) : State :=
  { s with padc := adcField (r.byte 0) (r.byte 1), tadc := adcField (r.byte 2) (r.byte 3) }

/-- The ADC response, in `ADC` (R99). -/
def adcResponse (r : Response) (s : State) : State :=
  if r.ok then { s.captureAdc r with st := .comp }
  else s.abort errIoRead stageAdcRead

/-- The one `Tick` that computes and completes, in `COMP` (R100). -/
def compTick (s : State) : State :=
  State.finish { s with press := s.rawInputs.pressWord, temp := s.rawInputs.tempWord, valid := true }

end Sys2Proof.Machine
end

