-- ==== Sys2Proof/Machine/Setreg.lean ====
section
/-! DEFINITION. `SETREG` (`spec/40_register_io.md` R86, R87). -/

namespace Sys2Proof.Machine

/-- `L_ADDR` and `L_DATA` latch the operands (R25, R86). -/
def State.latch (addr value : Byte) (s : State) : State := { s with lAddr := addr, lData := value }

/-- The writable-range guard (R49): the lower bound is always met, `addr` being unsigned. -/
def writable (addr : Byte) : Bool := decide (addr ≤ lastWritable)

/-- The write request of a `SETREG`, formed from the latched operands (R25, R86). -/
def setregRequest (s : State) : Request := writeRegister s.cfg.devAddr s.lAddr s.lData

/-- `SetRegAccept` (R86): latch, then either the write is issued or the guard rejects. A rejected command has latched
its operands too, as the pseudocode of R86 and the end state of Program 2 have it; D23 of
`spec/92_eei_decisions.md` says that `L_ADDR` and `L_DATA` keep their values then. The files disagree, and following
R86 is the model's choice (DESIGN CHOICE, log entry 16). -/
def setregAccept (addr value : Byte) (s : State) : State :=
  let t := s.latch addr value
  if writable addr then State.issue (setregRequest t) { t with st := .setwr }
  else t.abort errInvalidArgument stageDecode

/-- The meaning of `SETREG` at the host write that gives the command (R84, R86). -/
def execSetreg (addr value : Byte) (s : State) : Host.Outcome State Fault Refusal :=
  .next (accept (setregAccept addr value) s)

/-- The `SETREG` response, in `SETWR` (R87). -/
def setregResponse (r : Response) (s : State) : State :=
  if r.ok then s.finish else s.abort errIoWrite stageSetregWrite

end Sys2Proof.Machine
end

