-- ==== Sys2Proof/Machine/Dispatch.lean ====
section
/-! DEFINITION. One arm per command. -/

namespace Sys2Proof.Machine

def exec (i : Instr) (s : State) : Host.Outcome State Fault Refusal :=
  match i with
  | .measure => Sys2Proof.Machine.execMeasure s
  | .setreg addr value => Sys2Proof.Machine.execSetreg addr value s

end Sys2Proof.Machine
end

