-- ==== Sys2Proof/Machine/Illegal.lean ====
section
/-! DEFINITION. What an illegal command word does (`spec/40_register_io.md` R85). -/

namespace Sys2Proof.Machine

/-- `IllegalAccept` (R85): `IllegalCommand` at the decode stage; no request is issued. -/
def illegalAccept (s : State) : State := s.abort errIllegalCommand stageDecode

/-- The effect of a host write of an illegal word to `CMD` (R83 to R85). -/
def execIllegal (s : State) : Host.Outcome State Fault Refusal := .next (accept illegalAccept s)

end Sys2Proof.Machine
end

