-- ==== Sys2Proof/Machine/Events.lean ====
section
/-! DEFINITION. What each event does (`spec/00_scope.md` R10): host accesses (`spec/20_memory.md` R44), ticks,
transport responses (`spec/40_register_io.md` R76 to R78), reset (`spec/70_reset_and_hazards.md` R122 to R124), and two
events at one clock edge (`spec/92_eei_decisions.md` D20). -/

namespace Sys2Proof.Machine

/-- `CommandWrite(w)` (R83, R84): while `BUSY` the word is not decoded. -/
def commandWrite (w : Word) (s : State) : Host.Outcome State Fault Refusal :=
  if s.busy then .next s.setOverrun
  else
    match decode w with
    | .command i => exec i s
    | .illegal _ => execIllegal s

/-- `HostWrite` and `HostRead` (R44): the answer goes to the host bus; only a legal write at offset 0x00 has an
effect (R46). -/
def hostAccess (a : HostAccess) (s : State) : Host.Outcome State Fault Refusal :=
  match a with
  | .read _ _ => .next (s.answer a)
  | .write off data _ =>
    if a.legal = true ∧ off = 0x00 then commandWrite data (s.answer a) else .next (s.answer a)

/-- `Tick` (R98, R100), enabled only in `DELAY` and `COMP` (R10); elsewhere the edge changes nothing. -/
def onTick (s : State) : State :=
  match s.st with
  | .delay => delayTick s
  | .comp => compTick s
  | .idle => s
  | .coef => s
  | .conv => s
  | .adc => s
  | .setwr => s
  | .unused => s

/-- `TxnResponse` (R76): settle the outstanding request and run the handler of `st`; with no request outstanding the
response is ignored and not logged (R78). -/
def onResponse (r : Response) (s : State) : Host.Outcome State Fault Refusal :=
  match s.req with
  | none => .next s
  | some q =>
    let t := s.settle (r.outcome q.rlen)
    match s.st with
    | .coef => .next (coefResponse r t)
    | .conv => .next (convResponse r t)
    | .adc => .next (adcResponse r t)
    | .setwr => .next (setregResponse r t)
    | .idle => .fault .requestWithoutHandler
    | .delay => .fault .requestWithoutHandler
    | .comp => .fault .requestWithoutHandler
    | .unused => .fault .requestWithoutHandler

/-- An event of the sequencer's side. -/
def seqEvent (e : SeqEvent) (s : State) : Host.Outcome State Fault Refusal :=
  match e with
  | .tick => .next (onTick s)
  | .ready => .next s.taken
  | .response r => onResponse r s

/-- A host access and an event of the sequencer's side at one clock edge (D20). The host access sees the pre-edge
state; so does the other event, which while `IDLE` finds no tick enabled and nothing outstanding. -/
def coincide (a : HostAccess) (e : SeqEvent) (s : State) : Host.Outcome State Fault Refusal :=
  match hostAccess a s with
  | .next t => if s.busy then seqEvent e t else .next t
  | .fault f => .fault f
  | .refused r => .refused r

/-- The block at an edge with `rst = 1` (R122, R123): every piece of state takes its reset value, the parameters are
constants, and what the agents will do next is not the block's to reset. -/
def State.rst (s : State) : State := { State.reset with cfg := s.cfg, inputs := s.inputs }

/-- An edge with `rst = 1` (R122): reset wins over every other event; a host read returns the reset values, a host
write has no effect. -/
def resetEdge (a : Option HostAccess) (s : State) : State :=
  match a with
  | none => s.rst
  | some a => s.rst.answer a

/-- One event. A state that holds a reserved code has left the reachable states (I8); reset leaves it whatever it
holds (R122). -/
def handle (e : Event) (s : State) : Host.Outcome State Fault Refusal :=
  match e with
  | .rst a => .next (resetEdge a s)
  | .host a => if s.codesLegal then hostAccess a s else .fault .reservedCode
  | .seq e => if s.codesLegal then seqEvent e s else .fault .reservedCode
  | .edge a e => if s.codesLegal then coincide a e s else .fault .reservedCode

/-- The next event: the first of the inputs; when no input is placed, a clock edge on which the sequencer is alone
(log entry 1). -/
def State.nextEvent (s : State) : Event :=
  match s.inputs with
  | [] => .seq .tick
  | e :: _ => e

/-- The state from which the next event is gone. -/
def State.popInput (s : State) : State := { s with inputs := s.inputs.tail }

/-- One step of the machine: the next event, taken from the inputs and handled. -/
def stepEvent (s : State) : Host.Outcome State Fault Refusal := handle s.nextEvent s.popInput

/-- `s` with one event placed before its inputs. -/
def State.place (e : Event) (s : State) : State := { s with inputs := e :: s.inputs }

/-- One legal host write of `w` to `CMD` (R61, R72 `HW 0x00, w`). -/
def commandEvent (w : Word) : Event := .host (.write 0x00 w 0b1111)

end Sys2Proof.Machine
end

