-- ==== Sys2Proof/Machine/Step.lean ====
section
/-! DEFINITION. The step, and the placing of a command where the step takes its next one. -/

namespace Sys2Proof.Machine

/-- One step: one atomic event (`spec/00_scope.md` R10). -/
def step (s : State) : Host.Outcome State Fault Refusal := stepEvent s

/-- The command word as the next host write to `CMD`: a command is the data of one host write and nothing is fetched
(`spec/20_memory.md` R58; log entry 1). -/
def State.withFetchWord (s : State) (nbits w : Nat) : State := s.place (commandEvent (tableWord nbits w))

end Sys2Proof.Machine
end

