-- ==== Sys2Proof/Machine/Script.lean ====
section
/-! DEFINITION. The host-script notation (`spec/30_encoding.md` R72): what a written host program does to the machine,
line by line. -/

namespace Sys2Proof.Machine

/-- One line of a host script (R72). -/
inductive ScriptLine where
  /-- `HW off, word`: one legal host write. At a misaligned offset, where no host write is legal, the line is still
  run (log entry 15). -/
  | hw (off : Byte) (word : Word)
  /-- `HR off -> word`: one legal host read, which gives `word`. At a misaligned offset no legal read gives a word,
  and the line stops the script (log entry 15). -/
  | hr (off : Byte) (word : Word)
  /-- `CMD mnemonic operands`. -/
  | cmd (c : AsmCommand)
  /-- `POLL`. -/
  | poll
  /-- `T request => outcome`: the transport's answer to the outstanding request. -/
  | t (q : Request) (o : TxnOutcome)
  /-- `TICK x n`. -/
  | tick (n : Nat)
  deriving DecidableEq, Repr

/-- Why a script does not run to its end. -/
inductive ScriptStop where
  /-- A `CMD` line is an assembly error (R70). -/
  | assembly (e : AsmError)
  /-- An `HR` line read another word than the one written on it, or its read was illegal (log entry 15). -/
  | readDiffers (word : Word)
  /-- A `T` line names a request that is not the outstanding one, or an outcome that cannot answer it. -/
  | noSuchRequest
  /-- The machine stopped with a fault. -/
  | fault (f : Fault)
  /-- The machine refused. -/
  | refused (r : Refusal)
  /-- A `POLL` did not end within the reads allowed: the transport may never answer (R77). -/
  | pollUnfinished
  deriving DecidableEq, Repr

/-- The outcome can answer the request: a read is answered by exactly `rlen` bytes or `fail`, a write by no byte or
`fail` (R74, R75, D30). -/
def TxnOutcome.answers (o : TxnOutcome) (q : Request) : Bool :=
  match o with
  | .ok bytes => bytes.length == q.rlen
  | .fail => true

/-- A step's outcome, for a script. -/
def scriptNext (o : Host.Outcome State Fault Refusal) : Except ScriptStop State :=
  match o with
  | .next s => .ok s
  | .fault f => .error (.fault f)
  | .refused r => .error (.refused r)

/-- `POLL` ends when the value read has `DONE` = 1 and `BUSY` = 0 (R72). -/
def pollSatisfied (word : Word) : Bool := word.getLsbD 1 && !word.getLsbD 0

/-- `POLL`, with at most `reads` reads; between two reads the machine takes a step of its own. -/
def runPoll : Nat → State → Except ScriptStop State
  | 0, _ => .error .pollUnfinished
  | reads + 1, s =>
    match scriptNext (handle (.host (.read 0x04 0b1111)) s) with
    | .error e => .error e
    | .ok t =>
      if pollSatisfied t.statusWord then .ok t
      else
        match scriptNext (step t) with
        | .error e => .error e
        | .ok u => runPoll reads u

/-- `n` ticks. -/
def runTicks : Nat → State → Except ScriptStop State
  | 0, s => .ok s
  | n + 1, s =>
    match scriptNext (handle (.seq .tick) s) with
    | .error e => .error e
    | .ok t => runTicks n t

/-- One line of a script, `reads` being the most reads a `POLL` may take. R72 writes only legal accesses, with all four
byte enables set; at a misaligned offset, which R44 makes illegal, an `HW` line runs as the illegal access it is
(`herr = 1`, no effect) and the script goes on, and an `HR` line stops with `readDiffers`. That is the model's choice
(DESIGN CHOICE, log entry 15). -/
def runLine (reads : Nat) (l : ScriptLine) (s : State) : Except ScriptStop State :=
  match l with
  | .hw off word => scriptNext (handle (.host (.write off word 0b1111)) s)
  | .hr off word =>
    match scriptNext (handle (.host (.read off 0b1111)) s) with
    | .error e => .error e
    | .ok t => if t.hostAnswer = some (.data word false) then .ok t else .error (.readDiffers (s.hostReg off))
  | .cmd c =>
    match assemble c with
    | .ok word => scriptNext (handle (commandEvent word) s)
    | .error e => .error (.assembly e)
  | .poll => runPoll reads s
  | .t q o =>
    if s.req = some q ∧ o.answers q = true then scriptNext (handle (.seq (.response o.response)) s)
    else .error .noSuchRequest
  | .tick n => runTicks n s

/-- A host program: its lines in order (R72). -/
def runScript (reads : Nat) : List ScriptLine → State → Except ScriptStop State
  | [], s => .ok s
  | l :: ls, s =>
    match runLine reads l s with
    | .ok t => runScript reads ls t
    | .error e => .error e

end Sys2Proof.Machine
end

