-- ==== Sys2Proof/Safety.lean ====
section
/-! DEFINITION. What the spec says of every state the block can be in, and what counts as a safe run: the predicates
the claims are stated in. -/

namespace Sys2Proof.Machine

/-- The request that is outstanding in a sequencer state (R15, R17): one in each of the four transaction states, none
in the others. -/
def State.expectedRequest (s : State) : Option Request :=
  match s.st with
  | .idle => none
  | .coef => some (txnWriteRead s.cfg.devAddr 0x04 8)
  | .conv => some (txnWrite s.cfg.devAddr 0x12 0x00)
  | .delay => none
  | .adc => some (txnWriteRead s.cfg.devAddr 0x00 4)
  | .comp => none
  | .setwr => some (txnWrite s.cfg.devAddr s.lAddr s.lData)
  | .unused => none

/-- The four transaction states (R17). -/
def SeqState.isTransaction : SeqState → Bool
  | .idle => false
  | .coef => true
  | .conv => true
  | .delay => false
  | .adc => true
  | .comp => false
  | .setwr => true
  | .unused => false

/-- The states of a running `MEASURE`. -/
def SeqState.inMeasure : SeqState → Bool
  | .idle => false
  | .coef => true
  | .conv => true
  | .delay => true
  | .adc => true
  | .comp => true
  | .setwr => false
  | .unused => false

/-- The pairs of `ERRCODE` and `ERRSTAGE` an error can leave: the rows of the table of R108. -/
def errorPairs : List (BitVec 4 × BitVec 4) :=
  [(1, 2), (1, 4), (2, 3), (2, 5), (3, 1), (4, 1)]

/-- `txlog` is requests, each followed by an outcome that can answer it; the last request may still be open (R14,
R55, D30). -/
def logPaired : List TxEntry → Bool
  | [] => true
  | [.issued _] => true
  | .issued q :: .outcome o :: rest => o.answers q && logPaired rest
  | _ => false

/-- The request `txlog` ends with, if no outcome follows it. -/
def openRequest (log : List TxEntry) : Option Request :=
  match log.getLast? with
  | some (.issued q) => some q
  | _ => none

/-- The requests in `txlog`, the oldest first. -/
def requestsOf : List TxEntry → List Request
  | [] => []
  | .issued q :: rest => q :: requestsOf rest
  | .outcome _ :: rest => requestsOf rest

/-- The requests the block may ever issue to a device (R47, R53, R80, R81): the two range reads, the conversion
trigger, and a write to the writable range (R49). -/
def requestAllowed (dev : DevAddr) (q : Request) : Prop :=
  q = txnWriteRead dev 0x04 8 ∨ q = txnWriteRead dev 0x00 4 ∨ q = txnWrite dev 0x12 0x00 ∨
    ∃ addr value : Byte, addr ≤ 0x02 ∧ q = txnWrite dev addr value

/-- `ERRCODE` and `ERRSTAGE` are 0 exactly while `ERR` is 0, and otherwise a row of R108 (R28, R29, R108). -/
def State.errorRecordSound (s : State) : Prop :=
  if s.err then (s.errcode, s.errstage) ∈ errorPairs else s.errcode = 0 ∧ s.errstage = 0

/-- `PRESS` and `TEMP` lie in the ranges of R30 and R31. -/
def State.resultsInRange (s : State) : Prop :=
  -73013 ≤ s.press.toInt ∧ s.press.toInt ≤ 83009 ∧ -731 ≤ s.temp.toInt ∧ s.temp.toInt ≤ 1181

/-- The host access an event carries, if any. -/
def Event.hostPart : Event → Option HostAccess
  | .host a => some a
  | .seq _ => none
  | .edge a _ => some a
  | .rst a => a

/-- The event of the sequencer's side an event carries, if any. -/
def Event.seqPart : Event → Option SeqEvent
  | .host _ => none
  | .seq e => some e
  | .edge _ e => some e
  | .rst _ => none

/-- Whether an event is an edge with `rst = 1`. -/
def Event.isReset : Event → Bool
  | .host _ => false
  | .seq _ => false
  | .edge _ _ => false
  | .rst _ => true

/-- The event carries a legal host write of `w` to `CMD` (R61). -/
def Event.writesCommand (e : Event) (w : Word) : Prop := e.hostPart = some (.write 0x00 w 0b1111)

/-- The event carries a transport response with `rsp_ok = ok`. -/
def Event.answersWith (e : Event) (ok : Bool) : Prop := ∃ r : Response, e.seqPart = some (.response r) ∧ r.ok = ok

/-- What holds of every state the block can reach. -/
structure State.Inv (s : State) : Prop where
  /-- Code 7 of `st` is never entered (R15). -/
  stUsed : s.st ≠ .unused
  /-- A request is outstanding exactly in the transaction states, and it is the one of that state (R17). -/
  reqOfState : s.req = s.expectedRequest
  /-- What is presented on the port is outstanding (R73). -/
  presentedOutstanding : s.reqValid = true → s.req.isSome = true
  /-- The error record is sound (R28, R29, R108). -/
  recordSound : s.errorRecordSound
  /-- An error ends a command (R27, R112). -/
  errDone : s.err = true → s.done = true
  /-- A running command is not done (R27, R84). -/
  doneIdle : s.done = true → s.st = .idle
  /-- A running `MEASURE` has cleared `VALID` (R95). -/
  measureNotValid : s.st.inMeasure = true → s.valid = false
  /-- The wait counter is 0 outside `DELAY` and never above its load value (R26, R97, R98). -/
  waitBounded : s.wcnt ≤ s.cfg.convWaitCycles
  waitOnlyInDelay : s.st ≠ .delay → s.wcnt = 0
  /-- An operand that failed the guard is never written (R86). -/
  latchedWritable : s.st = .setwr → s.lAddr ≤ 0x02
  /-- While `VALID`, `PRESS` and `TEMP` are the results of the captured inputs (R27). -/
  validResults : s.valid = true → s.press = s.rawInputs.pressWord ∧ s.temp = s.rawInputs.tempWord
  /-- The results lie in their ranges (R30, R31). -/
  inRange : s.resultsInRange
  /-- The observation record is well formed, and its open request is the outstanding one (R14, R55). -/
  logSound : logPaired s.txlog = true
  logOpen : openRequest s.txlog = s.req

/-- The exact value of the source's pressure formula in hundredths of a kPa, as a rational (R101, R102, R104). -/
def exactP100 (x : RawInputs) : ℚ :=
  let a0f : ℚ := (x.a0Raw.toInt : ℚ) / 8
  let b1f : ℚ := (x.b1Raw.toInt : ℚ) / 8192
  let b2f : ℚ := (x.b2Raw.toInt : ℚ) / 16384
  let c12f : ℚ := (x.c12Raw.toInt : ℚ) / 4194304
  let tAdc : ℚ := (x.tadc.toNat : ℚ)
  let pAdc : ℚ := (x.padc.toNat : ℚ)
  let pComp : ℚ := a0f + (b1f + c12f * tAdc) * pAdc + b2f * tAdc
  100 * (pComp * (65 / 1023) + 50)

/-- The block has reached the end of a command (R27). -/
def State.completed (s : State) : Prop := s.st = .idle ∧ s.done = true

/-- A step that answers a next state: no fault and no refusal. -/
def Completes (o : Host.Outcome State Fault Refusal) : Prop := ∃ t, o = .next t

/-- `n` steps on which the machine neither faults nor refuses, from `s` to `t`. -/
def RunsTo (n : Nat) (s t : State) : Prop := Host.Core.run Sys2Proof.core n s = .next t

end Sys2Proof.Machine
end

