-- ==== Sys2Proof/Certificates/Slice0/Obligations.lean ====
section
/-! DEFINITION. The statements for the provers, in the order of the spec's files. Each docstring names the rule it
formalises; the word "exact" stands for an equation between whole states, which says the frame as well. -/

open Sys2Proof Sys2Proof.Machine

/-! ### Reset (`spec/10_state.md`, `spec/70_reset_and_hazards.md`) -/

/-- The state after reset holds, register by register, what the table of R41 lists; `CFG.DEVADDR` is the parameter,
which a reset does not touch. That it is 0x60 in `State.reset` is the model's choice of the instance (DESIGN CHOICE,
log entry 2): R41 gives only `P_DEVADDR`, and R6 the default. -/
def Obligations.ResetStateHoldsTheListedValues : Prop :=
  State.reset.st = .idle ∧
  State.reset.a0Raw = 0x0000#16 ∧ State.reset.b1Raw = 0x0000#16 ∧ State.reset.b2Raw = 0x0000#16 ∧
  State.reset.c12Raw = 0x0000#14 ∧ State.reset.padc = 0x000#10 ∧ State.reset.tadc = 0x000#10 ∧
  State.reset.lAddr = 0x00#8 ∧ State.reset.lData = 0x00#8 ∧ State.reset.wcnt = 0 ∧
  State.reset.done = false ∧ State.reset.err = false ∧ State.reset.valid = false ∧
  State.reset.overrun = false ∧ State.reset.busy = false ∧
  State.reset.errcode = 0#4 ∧ State.reset.errstage = 0#4 ∧
  State.reset.press = 0x00000000#32 ∧ State.reset.temp = 0x00000000#32 ∧
  State.reset.cfg.devAddr = 0x60#7 ∧
  State.reset.req = none ∧ State.reset.reqValid = false ∧ State.reset.txlog = [] ∧
  (∀ s : State, s.rst.cfg.devAddr = s.cfg.devAddr)

/-- An edge with `rst = 1` gives the reset state whatever the state held, with the parameters and the agents' coming
events as they were; a host read on the edge returns the reset values, a host write has no effect (R122, R123; the
answer to an illegal access is that of R44, log entry 7). -/
def Obligations.ResetEdgeGivesTheResetState : Prop :=
  ∀ s : State,
    handle (.rst none) s = .next { State.reset with cfg := s.cfg, inputs := s.inputs } ∧
    (∀ (off : Byte) (data : Word) (be : BitVec 4),
      handle (.rst (some (.write off data be))) s =
        .next { State.reset with
          cfg := s.cfg
          inputs := s.inputs
          hostAnswer := some (.written (decide (off.extractLsb' 0 2 ≠ 0 ∨ be ≠ 0b1111))) }) ∧
    (∀ (off : Byte) (be : BitVec 4),
      handle (.rst (some (.read off be))) s =
        .next { State.reset with
          cfg := s.cfg
          inputs := s.inputs
          hostAnswer := some
            (if off.extractLsb' 0 2 ≠ 0 ∨ be ≠ 0b1111 then .data 0 true
             else .data (if off = 0x10 then s.cfg.devAddr.setWidth 32 else 0) false) })

/-! ### The host interface (`spec/10_state.md` section 5, `spec/20_memory.md`) -/

/-- A host access does exactly what R44 says: an illegal one changes no state and is answered with `herr = 1` (a read
with 0), a legal read is answered with the register at its offset, and of the legal writes only the one at 0x00 has
an effect, that of its command word. -/
def Obligations.HostAccessDoesWhatItsPseudocodeSays : Prop :=
  ∀ (s : State) (off : Byte) (data : Word) (be : BitVec 4),
    hostAccess (.write off data be) s =
      (if off.extractLsb' 0 2 ≠ 0 ∨ be ≠ 0b1111 then .next { s with hostAnswer := some (.written true) }
       else if off = 0x00 then commandWrite data { s with hostAnswer := some (.written false) }
       else .next { s with hostAnswer := some (.written false) }) ∧
    hostAccess (.read off be) s =
      (if off.extractLsb' 0 2 ≠ 0 ∨ be ≠ 0b1111 then .next { s with hostAnswer := some (.data 0 true) }
       else .next { s with hostAnswer := some (.data (s.hostReg off) false) })

/-- `COEF0`, `COEF1` and `CFG` hold the raw coefficients and the device address bit for bit, at every moment
(R37, R38, R39); each is read-only, and reading it changes nothing. -/
def Obligations.CaptureWordsShowTheirRegisters : Prop :=
  ∀ s : State,
    (s.hostReg 0x18).extractLsb' 0 16 = s.a0Raw ∧ (s.hostReg 0x18).extractLsb' 16 16 = s.b1Raw ∧
    (s.hostReg 0x1C).extractLsb' 0 16 = s.b2Raw ∧ (s.hostReg 0x1C).extractLsb' 16 14 = s.c12Raw ∧
    (s.hostReg 0x1C).extractLsb' 30 2 = 0 ∧
    (s.hostReg 0x10).extractLsb' 0 7 = s.cfg.devAddr ∧ (s.hostReg 0x10).extractLsb' 7 25 = 0 ∧
    (∀ off ∈ [(0x10 : Byte), 0x18, 0x1C], ∀ data : Word,
      hostAccess (.read off 0b1111) s = .next { s with hostAnswer := some (.data (s.hostReg off) false) } ∧
      hostAccess (.write off data 0b1111) s = .next { s with hostAnswer := some (.written false) })

/-- `STATUS` holds each flag and code at its place, and 0 in the reserved bits; it is read-only, and reading
it changes nothing (R35). -/
def Obligations.StatusWordShowsItsFields : Prop :=
  ∀ s : State,
    ((s.hostReg 0x04).getLsbD 0 = true ↔ s.st ≠ .idle) ∧
    (s.hostReg 0x04).getLsbD 1 = s.done ∧ (s.hostReg 0x04).getLsbD 2 = s.err ∧
    (s.hostReg 0x04).getLsbD 3 = s.valid ∧ (s.hostReg 0x04).getLsbD 4 = s.overrun ∧
    (s.hostReg 0x04).extractLsb' 5 3 = 0 ∧ (s.hostReg 0x04).extractLsb' 8 4 = s.errcode ∧
    (s.hostReg 0x04).extractLsb' 12 4 = s.errstage ∧ (s.hostReg 0x04).extractLsb' 16 16 = 0 ∧
    hostAccess (.read 0x04 0b1111) s = .next { s with hostAnswer := some (.data (s.hostReg 0x04) false) } ∧
    ∀ data : Word, hostAccess (.write 0x04 data 0b1111) s = .next { s with hostAnswer := some (.written false) }

/-- The other offsets of the host map (R30, R31, R33, R34, R36, R40): `CMD` and every reserved offset read 0, `PRESS`
and `TEMP` read as they are, `ADC_RAW` shows the two ADC counts. -/
def Obligations.HostMapReadsItsRegisters : Prop :=
  ∀ s : State,
    s.hostReg 0x00 = 0 ∧ s.hostReg 0x08 = s.press ∧ s.hostReg 0x0C = s.temp ∧
    (s.hostReg 0x14).extractLsb' 0 10 = s.padc ∧ (s.hostReg 0x14).extractLsb' 10 6 = 0 ∧
    (s.hostReg 0x14).extractLsb' 16 10 = s.tadc ∧ (s.hostReg 0x14).extractLsb' 26 6 = 0 ∧
    (∀ off : Byte, 0x20 ≤ off → s.hostReg off = 0)

/-- What was last answered on the host bus never influences the block: whatever stands there, the next event does the
same, and answers the same if it answers at all (R46; the field is the model's own, log entry 8). -/
def Obligations.HostAnswerNeverInfluencesTheBlock : Prop :=
  ∀ (s t : State) (x : Option HostAnswer) (e : Event), handle e s = .next t →
    ∃ t', handle e { s with hostAnswer := x } = .next t' ∧
      { t' with hostAnswer := t.hostAnswer } = t ∧ (e.hostPart ≠ none → t' = t)

/-! ### Decoding (`spec/30_encoding.md`) -/

/-- Decoding what `encode` writes gives the command back, and every word that decodes to a command is the one
`encode` writes for it: no bit of an encoding is dropped, none is free. -/
def Obligations.DecodeAndEncodeAgree : Prop :=
  (∀ i : Instr, decode (encode i) = .command i) ∧
  (∀ (w : Word) (i : Instr), decode w = .command i → encode i = w)

/-- Exactly `1 + 2^16` of the `2^32` words decode to a command (R69). -/
def Obligations.DecodeCountsItsCommands : Prop :=
  ((Finset.range (2 ^ 32)).filter (fun n => (decode (BitVec.ofNat 32 n)).isCommand = true)).card = 1 + 2 ^ 16

/-- `MEASURE` is the single word `0x00000001`, opcode 1 and every other field 0 (R63). -/
def Obligations.MeasureIsOneWord : Prop :=
  ∀ w : Word,
    (decode w = .command .measure ↔ w = 0x00000001#32) ∧
    (decode w = .command .measure ↔ opcOf w = 0x01 ∧ addrOf w = 0 ∧ dataOf w = 0 ∧ rsvdOf w = 0) ∧
    (decode w = .command .measure ↔ w &&& 0xFFFFFFFF#32 = 0x00000001#32)

/-- `SETREG` is every word with opcode 2 and `RSVD` 0, with any address and any data; an address outside the writable
range is rejected when the command runs, not when it is decoded (R64). -/
def Obligations.SetregIsOpcodeTwoWithReservedZero : Prop :=
  (∀ (w : Word) (addr value : Byte),
    decode w = .command (.setreg addr value) ↔
      w.extractLsb' 0 8 = 0x02 ∧ w.extractLsb' 24 8 = 0 ∧ w.extractLsb' 8 8 = addr ∧ w.extractLsb' 16 8 = value) ∧
  (∀ w : Word, (∃ addr value : Byte, decode w = .command (.setreg addr value)) ↔
      w &&& 0xFF0000FF#32 = 0x00000002#32) ∧
  (∀ (s : State) (addr value : Byte), s.st = .idle → 0x02 < addr →
    ∃ t, commandWrite (encode (.setreg addr value)) s = .next t ∧ t.errcode = 3 ∧ t.errstage = 1 ∧ t.err = true)

/-- A word is illegal in exactly the three cases of R66, and when accepted it completes at once with
`ILLEGAL_COMMAND` at stage `DECODE` and no request. -/
def Obligations.IllegalWordsAreTheThreeCases : Prop :=
  (∀ w : Word, (∃ why, decode w = .illegal why) ↔
    ((opcOf w = 0x00 ∨ 0x03 ≤ opcOf w) ∨ (opcOf w = 0x01 ∧ w.extractLsb' 8 24 ≠ 0) ∨
      (opcOf w = 0x02 ∧ rsvdOf w ≠ 0))) ∧
  (∀ (w : Word) (why : IllegalWord) (s : State), decode w = .illegal why → s.st = .idle →
    ∃ t, commandWrite w s = .next t ∧ t.st = .idle ∧ t.done = true ∧ t.err = true ∧ t.errcode = 4 ∧
      t.errstage = 1 ∧ t.req = s.req ∧ t.txlog = s.txlog)

/-- The fifteen words of `spec/95_test_vectors.md` L2 A decode as its table says. -/
def Obligations.DecodesTheListedWords : Prop :=
  decode 0x00000001#32 = .command .measure ∧
  decode 0x00000000#32 = .illegal .unknownOpcode ∧
  decode 0x00000101#32 = .illegal .measureReservedBits ∧
  decode 0x00010001#32 = .illegal .measureReservedBits ∧
  decode 0x80000001#32 = .illegal .measureReservedBits ∧
  decode 0x00000002#32 = .command (.setreg 0x00 0x00) ∧
  decode 0x00AB0102#32 = .command (.setreg 0x01 0xAB) ∧
  decode 0x00FF0202#32 = .command (.setreg 0x02 0xFF) ∧
  decode 0x00000302#32 = .command (.setreg 0x03 0x00) ∧
  decode 0x00FFFF02#32 = .command (.setreg 0xFF 0xFF) ∧
  decode 0x01000002#32 = .illegal .setregReservedBits ∧
  decode 0x00000003#32 = .illegal .unknownOpcode ∧
  decode 0x000000FF#32 = .illegal .unknownOpcode ∧
  decode 0xFFFFFFFF#32 = .illegal .unknownOpcode ∧
  decode 0x12345678#32 = .illegal .unknownOpcode

/-- The assembler truncates no operand: within 0 to 255 the word it emits decodes to the same numbers, and outside
it is an error (R70). -/
def Obligations.AssemblerTruncatesNothing : Prop :=
  assemble .measure = .ok 0x00000001#32 ∧
  ∀ addr value : Nat,
    (addr ≤ 255 ∧ value ≤ 255 →
      ∃ w a v, assemble (.setreg addr value) = .ok w ∧ decode w = .command (.setreg a v) ∧
        a.toNat = addr ∧ v.toNat = value) ∧
    (255 < addr ∨ 255 < value → assemble (.setreg addr value) = .error .operandOutOfRange)

/-! ### Command acceptance (`spec/40_register_io.md`, `spec/42_measure.md` R95) -/

/-- When the next input is a legal host write of a word to `CMD`, the step is `exec` of the command the word decodes
to, on the state with the input taken and the write answered; an illegal word's step is the illegal command's. The
same holds of a word placed by `withFetchWord`. That a step takes its event from `inputs` is the model's choice (log
entry 1). -/
def Obligations.StepRunsTheDecodedCommand : Prop :=
  (∀ (s : State) (w : Word) (i : Instr) (rest : List Event), s.codesLegal = true → decode w = .command i →
    s.inputs = .host (.write 0x00 w 0b1111) :: rest →
    step s = exec i { s with inputs := rest, hostAnswer := some (.written false) }) ∧
  (∀ (s : State) (w : Word) (why : IllegalWord) (rest : List Event), s.codesLegal = true →
    decode w = .illegal why → s.inputs = .host (.write 0x00 w 0b1111) :: rest →
    step s = execIllegal { s with inputs := rest, hostAnswer := some (.written false) }) ∧
  (∀ (s : State) (i : Instr), s.codesLegal = true →
    step (s.withFetchWord 32 (encode i).toNat) = exec i { s with hostAnswer := some (.written false) })

/-- `MEASURE` accepted while `IDLE` (R95): exact. The record and `VALID` are cleared, the 8-byte range read is issued,
nothing else changes. -/
def Obligations.MeasureIssuesTheCoefficientRead : Prop :=
  ∀ s : State, s.st = .idle →
    exec .measure s = .next { s with
      done := false
      err := false
      errcode := 0
      errstage := 0
      overrun := false
      valid := false
      st := .coef
      req := some { kind := .writeRead, dev := s.cfg.devAddr, wbytes := [0x04], rlen := 8 }
      reqValid := true
      txlog := s.txlog ++
        [.issued { kind := .writeRead, dev := s.cfg.devAddr, wbytes := [0x04], rlen := 8 }] }

/-- `SETREG` accepted while `IDLE` with a writable address (R86): exact. The operands are latched and exactly one
write of them is issued. -/
def Obligations.SetregIssuesItsWrite : Prop :=
  ∀ (s : State) (addr value : Byte), s.st = .idle → addr = 0x00 ∨ addr = 0x01 ∨ addr = 0x02 →
    exec (.setreg addr value) s = .next { s with
      done := false
      err := false
      errcode := 0
      errstage := 0
      overrun := false
      lAddr := addr
      lData := value
      st := .setwr
      req := some { kind := .write, dev := s.cfg.devAddr, wbytes := [addr, value], rlen := 0 }
      reqValid := true
      txlog := s.txlog ++
        [.issued { kind := .write, dev := s.cfg.devAddr, wbytes := [addr, value], rlen := 0 }] }

/-- `SETREG` accepted while `IDLE` with any other address (R86): exact. The guard depends on the address alone, the
operands are latched, the command ends with `INVALID_ARGUMENT` at stage `DECODE` and no request. That a rejected
command latches its operands, where D23 disagrees with R86, is the model's choice (log entry 16). -/
def Obligations.SetregGuardRejectsTheRest : Prop :=
  ∀ (s : State) (addr value : Byte), s.st = .idle → 3 ≤ addr.toNat →
    exec (.setreg addr value) s = .next { s with
      done := true
      err := true
      errcode := 3
      errstage := 1
      overrun := false
      lAddr := addr
      lData := value }

/-- A legal host write to `CMD` while `BUSY` changes only `OVERRUN`, whatever the word: it is not decoded (R83). -/
def Obligations.BusyWriteSetsOverrunOnly : Prop :=
  ∀ (s : State) (w : Word), s.st ≠ .idle →
    hostAccess (.write 0x00 w 0b1111) s =
      .next { s with overrun := true, hostAnswer := some (.written false) } ∧
    commandWrite w s = .next { s with overrun := true } ∧
    ∀ i : Instr, exec i s = .next { s with overrun := true }

/-- An illegal word accepted while `IDLE` (R85): exact, with the `STATUS` word of the rule's example. -/
def Obligations.IllegalCommandRecordsItself : Prop :=
  (∀ (s : State) (w : Word) (why : IllegalWord), s.st = .idle → decode w = .illegal why →
    commandWrite w s = .next { s with
      done := true
      err := true
      errcode := 4
      errstage := 1
      overrun := false }) ∧
  (∀ s : State, s.st = .idle →
    ∃ t, commandWrite 0x00000000#32 s = .next t ∧
      t.statusWord = if s.valid then 0x0000140E#32 else 0x00001406#32)

/-! ### The sequencer (`spec/42_measure.md` R96 to R100, `spec/40_register_io.md` R76 to R87) -/

/-- The coefficient response (R96, R112): exact, both outcomes. That it ends the presentation of a request not yet
taken (`reqValid`) is the model's choice (log entry 5). -/
def Obligations.CoefficientResponseCapturesAndTriggers : Prop :=
  ∀ (s : State) (q : Request) (r : Response), s.st = .coef → s.req = some q →
    seqEvent (.response r) s =
      (if r.ok then
        .next { s with
          a0Raw := r.byte 0 ++ r.byte 1
          b1Raw := r.byte 2 ++ r.byte 3
          b2Raw := r.byte 4 ++ r.byte 5
          c12Raw := (r.byte 6 ++ r.byte 7).extractLsb' 2 14
          st := .conv
          req := some { kind := .write, dev := s.cfg.devAddr, wbytes := [0x12, 0x00], rlen := 0 }
          reqValid := true
          txlog := s.txlog ++ [.outcome (.ok ((List.range q.rlen).map r.byte)),
            .issued { kind := .write, dev := s.cfg.devAddr, wbytes := [0x12, 0x00], rlen := 0 }] }
      else
        .next { s with
          st := .idle
          done := true
          err := true
          errcode := 1
          errstage := 2
          req := none
          reqValid := false
          txlog := s.txlog ++ [.outcome .fail] })

/-- The conversion-trigger response (R97, R112): exact, both outcomes. The wait is counted from this response. That it
ends the presentation of a request not yet taken (`reqValid`) is the model's choice (log entry 5). -/
def Obligations.TriggerResponseStartsTheWait : Prop :=
  ∀ (s : State) (q : Request) (r : Response), s.st = .conv → s.req = some q →
    seqEvent (.response r) s =
      (if r.ok then
        .next { s with
          wcnt := s.cfg.convWaitCycles
          st := .delay
          req := none
          reqValid := false
          txlog := s.txlog ++ [.outcome (.ok ((List.range q.rlen).map r.byte))] }
      else
        .next { s with
          st := .idle
          done := true
          err := true
          errcode := 2
          errstage := 3
          req := none
          reqValid := false
          txlog := s.txlog ++ [.outcome .fail] })

/-- From `DELAY`, each tick takes one from `WCNT`; the tick after it reached 0, and none before, issues the 4-byte
range read: `WCNT + 1` ticks, exact. Under the production constraint `P_CONV_WAIT_CYCLES + 1` ticks are more than
40 ms (R98). -/
def Obligations.WaitLastsItsTicks : Prop :=
  (∀ (s : State) (k : Nat), s.st = .delay → k ≤ s.wcnt →
    onTick^[k] s = { s with wcnt := s.wcnt - k }) ∧
  (∀ s : State, s.st = .delay →
    onTick^[s.wcnt + 1] s = { s with
      wcnt := 0
      st := .adc
      req := some { kind := .writeRead, dev := s.cfg.devAddr, wbytes := [0x00], rlen := 4 }
      reqValid := true
      txlog := s.txlog ++
        [.issued { kind := .writeRead, dev := s.cfg.devAddr, wbytes := [0x00], rlen := 4 }] }) ∧
  (∀ c : Config, c.production = true →
    (40 : ℚ) / 1000 < ((c.convWaitCycles : ℚ) + 1) / (c.fclkHz : ℚ))

/-- The ADC response (R99, R112): exact, both outcomes. That it ends the presentation of a request not yet taken
(`reqValid`) is the model's choice (log entry 5). -/
def Obligations.AdcResponseCapturesTheCounts : Prop :=
  ∀ (s : State) (q : Request) (r : Response), s.st = .adc → s.req = some q →
    seqEvent (.response r) s =
      (if r.ok then
        .next { s with
          padc := (r.byte 0 ++ r.byte 1).extractLsb' 6 10
          tadc := (r.byte 2 ++ r.byte 3).extractLsb' 6 10
          st := .comp
          req := none
          reqValid := false
          txlog := s.txlog ++ [.outcome (.ok ((List.range q.rlen).map r.byte))] }
      else
        .next { s with
          st := .idle
          done := true
          err := true
          errcode := 1
          errstage := 4
          req := none
          reqValid := false
          txlog := s.txlog ++ [.outcome .fail] })

/-- The `COMP` tick (R100): exact. `PRESS`, `TEMP`, `VALID`, `DONE` and `st` are written in the one event, from the
current capture registers. -/
def Obligations.CompTickWritesTheResults : Prop :=
  ∀ s : State, s.st = .comp →
    seqEvent .tick s = .next { s with
      press := BitVec.ofInt 32 (p100Of (p22Of s.a0Raw.toInt s.b1Raw.toInt s.b2Raw.toInt s.c12Raw.toInt
        s.padc.toNat s.tadc.toNat))
      temp := BitVec.ofInt 32 (t10Of s.tadc)
      valid := true
      done := true
      st := .idle }

/-- The `SETREG` response (R87, R112): exact, both outcomes. That it ends the presentation of a request not yet taken
(`reqValid`) is the model's choice (log entry 5). -/
def Obligations.SetregResponseEndsTheCommand : Prop :=
  ∀ (s : State) (q : Request) (r : Response), s.st = .setwr → s.req = some q →
    seqEvent (.response r) s =
      (if r.ok then
        .next { s with
          st := .idle
          done := true
          req := none
          reqValid := false
          txlog := s.txlog ++ [.outcome (.ok ((List.range q.rlen).map r.byte))] }
      else
        .next { s with
          st := .idle
          done := true
          err := true
          errcode := 2
          errstage := 5
          req := none
          reqValid := false
          txlog := s.txlog ++ [.outcome .fail] })

/-- A response with nothing outstanding changes no state and is not logged (R78). -/
def Obligations.StrayResponseIsIgnored : Prop :=
  ∀ (s : State) (r : Response), s.req = none → seqEvent (.response r) s = .next s

/-- A failed transaction aborts the command (R82, R108, R112, R113): the code and the stage are those of the row of
the state it was in, no further request is issued, and no result, no capture register and no `VALID` is written. That
the response ends the presentation of a request not yet taken (`reqValid`) is the model's choice (log entry 5). -/
def Obligations.FailedTransactionAborts : Prop :=
  ∀ (s : State) (q : Request) (r : Response), s.st.isTransaction = true → s.req = some q → r.ok = false →
    ∃ code stage, (code, stage) ∈ errorPairs ∧
      ((code = 1 ∧ stage = 2 ∧ s.st = .coef) ∨ (code = 2 ∧ stage = 3 ∧ s.st = .conv) ∨
        (code = 1 ∧ stage = 4 ∧ s.st = .adc) ∨ (code = 2 ∧ stage = 5 ∧ s.st = .setwr)) ∧
      seqEvent (.response r) s = .next { s with
        st := .idle
        done := true
        err := true
        errcode := code
        errstage := stage
        req := none
        reqValid := false
        txlog := s.txlog ++ [.outcome .fail] }

/-- While a request is outstanding the block waits: an event that is neither a reset nor a response leaves `st` and
the request as they are, the request stays presented until the transport takes it, and with no input the machine
steps for ever without moving (R17, R73, R77). The handshake as an event of its own and the empty input as a tick are
the model's choices (log entries 5 and 1). -/
def Obligations.OnlyAnAnswerOrResetEndsTheWait : Prop :=
  (∀ (s t : State) (e : Event), s.st.isTransaction = true → handle e s = .next t → e.isReset = false →
    (∀ r, e.seqPart ≠ some (.response r)) →
    t.st = s.st ∧ t.req = s.req ∧ t.busy = true ∧
      t.reqValid = (if e.seqPart = some .ready then false else s.reqValid)) ∧
  (∀ (s : State) (n : Nat), s.st.isTransaction = true → s.codesLegal = true → s.inputs = [] → RunsTo n s s)

/-- A host access and a sequencer event at one clock edge (`spec/92_eei_decisions.md` D20): while `BUSY` the read is
answered from the pre-edge state and the sequencer's event happens as it would alone; a write to `CMD` sees
`BUSY = 1` and sets `OVERRUN` only, even at the edge of a completion; a write elsewhere, or an illegal one, is only
answered; while `IDLE` the access alone happens (log entry 11). -/
def Obligations.CoincidentEventsSeeThePreEdgeState : Prop :=
  (∀ (s t : State) (e : SeqEvent) (off : Byte) (be : BitVec 4), s.codesLegal = true → s.st ≠ .idle →
    seqEvent e s = .next t →
    handle (.edge (.read off be) e) s = .next { t with hostAnswer := some (s.answerTo (.read off be)) }) ∧
  (∀ (s t : State) (e : SeqEvent) (w : Word), s.codesLegal = true → s.st ≠ .idle → seqEvent e s = .next t →
    handle (.edge (.write 0x00 w 0b1111) e) s =
      .next { t with overrun := true, hostAnswer := some (.written false) }) ∧
  (∀ (s t : State) (e : SeqEvent) (off : Byte) (w : Word) (be : BitVec 4), s.codesLegal = true → s.st ≠ .idle →
    seqEvent e s = .next t → off ≠ 0x00 ∨ be ≠ 0b1111 →
    handle (.edge (.write off w be) e) s = .next { t with
      hostAnswer := some (.written (decide (off.extractLsb' 0 2 ≠ 0 ∨ be ≠ 0b1111))) }) ∧
  (∀ (s : State) (a : HostAccess) (e : SeqEvent), s.codesLegal = true → s.st = .idle →
    handle (.edge a e) s = hostAccess a s)

/-! ### Signed decode and the datapath (`spec/41_signed_decode.md`, `spec/42_measure.md` R101 to R106) -/

/-- Two's-complement decode at both widths (R89): the value, its range, its agreement with sign extension to any
wider register, and the corner cases the rule lists. -/
def Obligations.SignedDecodeIsTwosComplement : Prop :=
  (∀ u : BitVec 16, toSigned u = (if u.getLsbD 15 then (u.toNat : Int) - 65536 else (u.toNat : Int)) ∧
    -32768 ≤ toSigned u ∧ toSigned u ≤ 32767 ∧ ∀ n, 16 ≤ n → sext n (toSigned u) = u.signExtend n) ∧
  (∀ u : BitVec 14, toSigned u = (if u.getLsbD 13 then (u.toNat : Int) - 16384 else (u.toNat : Int)) ∧
    -8192 ≤ toSigned u ∧ toSigned u ≤ 8191 ∧ ∀ n, 14 ≤ n → sext n (toSigned u) = u.signExtend n) ∧
  toSigned 0x7FFF#16 = 32767 ∧ toSigned 0x8000#16 = -32768 ∧ toSigned 0xFFFF#16 = -1 ∧ toSigned 0x0000#16 = 0 ∧
  toSigned 0x1FFF#14 = 8191 ∧ toSigned 0x2000#14 = -8192 ∧ toSigned 0x3FFF#14 = -1 ∧ toSigned 0x0000#14 = 0

/-- Byte assembly and field extraction (R88, R91, R92): the first byte is the high one, `C12_RAW` is the pair without
its two low bits and its sign is the first byte's, the ADC counts are the pair without its six low bits, unsigned. -/
def Obligations.FieldsAreTheHighBitsOfTheirPair : Prop :=
  (∀ hi lo : Byte, (be16 hi lo).toNat = hi.toNat * 256 + lo.toNat ∧
    (c12Field hi lo).toNat = (hi.toNat * 256 + lo.toNat) / 4 ∧ c12Field hi lo = hi ++ lo.extractLsb' 2 6 ∧
    (toSigned (c12Field hi lo) < 0 ↔ hi.getLsbD 7 = true) ∧
    (adcField hi lo).toNat = (hi.toNat * 256 + lo.toNat) / 64 ∧ adcField hi lo = hi ++ lo.extractLsb' 6 2) ∧
  be16 0x3E 0xE8 = 0x3EE8#16 ∧
  toSigned (c12Field 0x7F 0xFC) = 8191 ∧ toSigned (c12Field 0x80 0x00) = -8192 ∧
  toSigned (c12Field 0xFF 0xFF) = -1 ∧ toSigned (c12Field 0x00 0x03) = 0 ∧ toSigned (c12Field 0x7D 0x98) = 8038 ∧
  (adcField 0xFF 0xC0).toNat = 1023 ∧ (adcField 0xFF 0xFF).toNat = 1023 ∧ (adcField 0x00 0x3F).toNat = 0 ∧
  (adcField 0x80 0x00).toNat = 512 ∧ (adcField 0x00 0x40).toNat = 1 ∧
  (adcField 0x6C 0x00).toNat = 432 ∧ (adcField 0x7A 0x40).toNat = 489

/-- `rne` is the nearest integer to the quotient, a tie going to the even one (R8, R104). -/
def Obligations.RoundingIsToNearestTiesToEven : Prop :=
  ∀ num den : Int, 0 < den →
    2 * |num - den * rne num den| ≤ den ∧ (2 * |num - den * rne num den| = den → rne num den % 2 = 0)

/-- The compensated pressure never leaves a 37-bit accumulator, whatever the bytes, and its bounds are reached
(R102, R103). -/
def Obligations.CompensationFitsThirtySevenBits : Prop :=
  (∀ x : RawInputs, -51497672704 ≤ x.p22 ∧ x.p22 ≤ 51495316223 ∧ -(2 ^ 36) ≤ x.p22 ∧ x.p22 < 2 ^ 36) ∧
  (∃ x : RawInputs, x.p22 = 51495316223) ∧ (∃ x : RawInputs, x.p22 = -51497672704)

/-- `PRESS` is the source's pressure formula over exact rationals, rounded once to the nearest hundredth of a kPa,
ties to even, for every eight coefficient bytes and every four ADC bytes; it lies in the stated range, and the
32-bit register holds it (R30, R100 to R104, R106). -/
def Obligations.PressureIsTheExactFormulaRounded : Prop :=
  ∀ x : RawInputs,
    |exactP100 x - (x.pressWord.toInt : ℚ)| ≤ 1 / 2 ∧
    (|exactP100 x - (x.pressWord.toInt : ℚ)| = 1 / 2 → x.pressWord.toInt % 2 = 0) ∧
    -73013 ≤ x.pressWord.toInt ∧ x.pressWord.toInt ≤ 83009

/-- `PRESS` lies exactly half a hundredth of a kPa from the source's formula, a tie of the rounding, just when `P22` is
an odd multiple of `1023 * 2^19` (R104). -/
def Obligations.PressureTiesAreTheOddMultiples : Prop :=
  ∀ x : RawInputs,
    |exactP100 x - (x.pressWord.toInt : ℚ)| = 1 / 2 ↔ ∃ k : Int, x.p22 = (2 * k + 1) * (1023 * 2 ^ 19)

/-- `TEMP` is the source's temperature formula over exact rationals, rounded once to the nearest tenth of a degree; no
tie occurs, it never rises with `TADC`, and it lies in the stated range, whose ends are reached (R31, R105). -/
def Obligations.TemperatureIsTheExactFormulaRounded : Prop :=
  (∀ x : RawInputs,
    |10 * (((x.tadc.toNat : ℚ) - 498) / (-(535 / 100)) + 25) - (x.tempWord.toInt : ℚ)| < 1 / 2 ∧
    x.tempWord.toInt = t10Of x.tadc ∧ -731 ≤ x.tempWord.toInt ∧ x.tempWord.toInt ≤ 1181) ∧
  (∀ u v : BitVec 10, u ≤ v → t10Of v ≤ t10Of u) ∧
  t10Of 0 = 1181 ∧ t10Of 498 = 250 ∧ t10Of 1023 = -731

/-! ### The whole machine -/

/-- The invariant holds after reset. -/
def Obligations.ResetMeetsTheInvariant : Prop := State.reset.Inv

/-- Every step keeps the invariant, from every state that meets it (R15, R17, R26 to R31, R73, R108; its clause on
`reqValid` rests on the model's choice of log entry 5). -/
def Obligations.StepKeepsTheInvariant : Prop :=
  ∀ s t : State, s.Inv → step s = .next t → t.Inv

/-- From a state that meets the invariant no step faults or refuses: every event has an effect, whatever the bytes a
response carries and whatever word the host writes (R76, R103). That events other than an enabled one have the empty
effect is log entry 4. -/
def Obligations.InvariantStatesNeverStop : Prop :=
  ∀ s : State, s.Inv → Completes (step s) ∧ ∀ e : Event, Completes (handle e s)

/-- A state that holds a reserved code stops at every event but a reset, with a fault of its own name, and a reset
leaves it (I8 of `spec/93_implementation_defined.md`; log entry 6). -/
def Obligations.ReservedCodesStopUntilReset : Prop :=
  (∀ (s : State) (e : Event), s.st = .unused ∨ 4 < s.errcode ∨ 5 < s.errstage → e.isReset = false →
    handle e s = .fault .reservedCode) ∧
  (∀ (s : State) (a : Option HostAccess), ∃ t, handle (.rst a) s = .next t ∧ t.codesLegal = true)

/-- `st` changes only as R16 lists. -/
def Obligations.SequencerMovesOnlyAsListed : Prop :=
  ∀ (s t : State) (e : Event), handle e s = .next t → t.st ≠ s.st →
    (e.isReset = true ∧ t.st = .idle) ∨
    (s.st = .idle ∧ t.st = .coef ∧ ∃ w, e.writesCommand w ∧ decode w = .command .measure) ∨
    (s.st = .idle ∧ t.st = .setwr ∧
      ∃ w addr value, e.writesCommand w ∧ decode w = .command (.setreg addr value) ∧ addr ≤ 0x02) ∨
    (e.answersWith true ∧ ((s.st = .coef ∧ t.st = .conv) ∨ (s.st = .conv ∧ t.st = .delay) ∨
      (s.st = .adc ∧ t.st = .comp))) ∨
    ((∃ r, e.seqPart = some (.response r)) ∧ s.st = .setwr ∧ t.st = .idle) ∨
    (e.answersWith false ∧ (s.st = .coef ∨ s.st = .conv ∨ s.st = .adc) ∧ t.st = .idle) ∨
    (e.seqPart = some .tick ∧ ((s.st = .delay ∧ t.st = .adc) ∨ (s.st = .comp ∧ t.st = .idle)))

/-- `PRESS` and `TEMP` change, and `VALID` is set, only at the `COMP` tick or at reset: no error, no `SETREG` and no
host access touches them, and a running `MEASURE` leaves the old results readable (R27, R30, R31, R113, R128). -/
def Obligations.ResultsChangeOnlyAtCompletion : Prop :=
  ∀ (s t : State) (e : Event), handle e s = .next t →
    (t.press ≠ s.press ∨ t.temp ≠ s.temp ∨ (s.valid = false ∧ t.valid = true)) →
    e.isReset = true ∨
      (s.st = .comp ∧ e.seqPart = some .tick ∧ t.st = .idle ∧ t.done = true ∧ t.valid = true)

/-- The error record of a state that meets the invariant stands until the next accepted command or reset: no other
event changes it, reading `STATUS` included (R115). -/
def Obligations.ErrorRecordStandsUntilAcceptance : Prop :=
  ∀ (s t : State) (e : Event), s.Inv → s.err = true → handle e s = .next t → e.isReset = false →
    (∀ w, ¬ e.writesCommand w) →
    t.err = true ∧ t.done = true ∧ t.errcode = s.errcode ∧ t.errstage = s.errstage ∧ t.st = .idle

/-- `txlog` only grows: an event that is no reset appends nothing, a request, an outcome, or an outcome and then a
request (R14, R55); a reset empties it (R41; that growth is meant between resets is log entry 3). -/
def Obligations.TransactionLogOnlyGrows : Prop :=
  (∀ (s t : State) (e : Event), handle e s = .next t → e.isReset = false →
    t.txlog = s.txlog ∨ (∃ q, t.txlog = s.txlog ++ [.issued q]) ∨ (∃ o, t.txlog = s.txlog ++ [.outcome o]) ∨
      (∃ o q, t.txlog = s.txlog ++ [.outcome o, .issued q])) ∧
  (∀ (s : State) (a : Option HostAccess), ∃ t, handle (.rst a) s = .next t ∧ t.txlog = [])

/-- Every request the block ever issues goes to `CFG.DEVADDR`, which no event writes, and is one of the two range
reads, the conversion trigger or a write to 0x00 to 0x02 (R32, R47, R49, R53). -/
def Obligations.RequestsGoOnlyToAllowedRegisters : Prop :=
  ∀ s t : State, (∀ q ∈ requestsOf s.txlog, requestAllowed s.cfg.devAddr q) → step s = .next t →
    t.cfg = s.cfg ∧ ∀ q ∈ requestsOf t.txlog, requestAllowed t.cfg.devAddr q ∧ q.dev = t.cfg.devAddr

/-- A `MEASURE` whose transactions all succeed runs to its end in `P_CONV_WAIT_CYCLES + 6` steps, for every response
and every wait, and leaves exactly the results of the bytes of its own two reads: nothing of an earlier command
enters them (R94, R107, R131). The events stand in `inputs` (log entry 1). -/
def Obligations.MeasureRunsToItsResults : Prop :=
  ∀ (s : State) (rc rv ra : Response) (rest : List Event),
    s.st = .idle → s.codesLegal = true → rc.ok = true → rv.ok = true → ra.ok = true →
    s.inputs = [commandEvent 0x00000001#32, .seq (.response rc), .seq (.response rv)] ++
      List.replicate (s.cfg.convWaitCycles + 1) (.seq .tick) ++ [.seq (.response ra), .seq .tick] ++ rest →
    ∃ t, RunsTo (s.cfg.convWaitCycles + 6) s t ∧
      t.inputs = rest ∧ t.st = .idle ∧ t.statusWord = 0x0000000A#32 ∧
      t.a0Raw = be16 (rc.byte 0) (rc.byte 1) ∧ t.b1Raw = be16 (rc.byte 2) (rc.byte 3) ∧
      t.b2Raw = be16 (rc.byte 4) (rc.byte 5) ∧ t.c12Raw = c12Field (rc.byte 6) (rc.byte 7) ∧
      t.padc = adcField (ra.byte 0) (ra.byte 1) ∧ t.tadc = adcField (ra.byte 2) (ra.byte 3) ∧
      t.press = t.rawInputs.pressWord ∧ t.temp = t.rawInputs.tempWord ∧
      t.lAddr = s.lAddr ∧ t.lData = s.lData ∧ t.cfg = s.cfg ∧ t.req = none ∧ t.wcnt = 0 ∧
      t.txlog = s.txlog ++
        [.issued (txnWriteRead s.cfg.devAddr 0x04 8), .outcome (.ok ((List.range 8).map rc.byte)),
         .issued (txnWrite s.cfg.devAddr 0x12 0x00), .outcome (.ok []),
         .issued (txnWriteRead s.cfg.devAddr 0x00 4), .outcome (.ok ((List.range 4).map ra.byte))]

/-- A `MEASURE` that fails keeps the old results and is not valid. One whose ADC read fails holds the new coefficients
and the old ADC counts; so does one whose trigger write fails, and it issues no ADC read; one whose coefficient read
fails keeps every capture register and issues no conversion trigger (R94, R97, R112, R113). The events stand in
`inputs` (log entry 1). -/
def Obligations.FailedMeasureKeepsTheOldResults : Prop :=
  (∀ (s : State) (rc rv ra : Response) (rest : List Event),
    s.st = .idle → s.codesLegal = true → rc.ok = true → rv.ok = true → ra.ok = false →
    s.inputs = [commandEvent 0x00000001#32, .seq (.response rc), .seq (.response rv)] ++
      List.replicate (s.cfg.convWaitCycles + 1) (.seq .tick) ++ [.seq (.response ra)] ++ rest →
    ∃ t, RunsTo (s.cfg.convWaitCycles + 5) s t ∧ t.inputs = rest ∧ t.statusWord = 0x00004106#32 ∧
      t.press = s.press ∧ t.temp = s.temp ∧ t.padc = s.padc ∧ t.tadc = s.tadc ∧
      t.a0Raw = be16 (rc.byte 0) (rc.byte 1) ∧ t.b1Raw = be16 (rc.byte 2) (rc.byte 3) ∧
      t.b2Raw = be16 (rc.byte 4) (rc.byte 5) ∧ t.c12Raw = c12Field (rc.byte 6) (rc.byte 7)) ∧
  (∀ (s : State) (rc rv : Response) (rest : List Event),
    s.st = .idle → s.codesLegal = true → rc.ok = true → rv.ok = false →
    s.inputs = [commandEvent 0x00000001#32, .seq (.response rc), .seq (.response rv)] ++ rest →
    ∃ t, RunsTo 3 s t ∧ t.inputs = rest ∧ t.statusWord = 0x00003206#32 ∧
      t.press = s.press ∧ t.temp = s.temp ∧ t.padc = s.padc ∧ t.tadc = s.tadc ∧
      t.a0Raw = be16 (rc.byte 0) (rc.byte 1) ∧ t.b1Raw = be16 (rc.byte 2) (rc.byte 3) ∧
      t.b2Raw = be16 (rc.byte 4) (rc.byte 5) ∧ t.c12Raw = c12Field (rc.byte 6) (rc.byte 7) ∧
      t.req = none ∧ t.txlog = s.txlog ++
        [.issued (txnWriteRead s.cfg.devAddr 0x04 8), .outcome (.ok ((List.range 8).map rc.byte)),
         .issued (txnWrite s.cfg.devAddr 0x12 0x00), .outcome .fail]) ∧
  (∀ (s : State) (rc : Response) (rest : List Event),
    s.st = .idle → s.codesLegal = true → rc.ok = false →
    s.inputs = [commandEvent 0x00000001#32, .seq (.response rc)] ++ rest →
    ∃ t, RunsTo 2 s t ∧ t.inputs = rest ∧ t.statusWord = 0x00002106#32 ∧ t.rawInputs = s.rawInputs ∧
      t.press = s.press ∧ t.temp = s.temp ∧
      t.txlog = s.txlog ++ [.issued (txnWriteRead s.cfg.devAddr 0x04 8), .outcome .fail])

/-- A `SETREG` runs to its end in two steps when its write is answered, and in one when the guard rejects it; `VALID`,
the results and the capture registers stay as they were (R86, R87, R131). The events stand in `inputs` (log
entry 1), and a rejected command has latched its operands (the model's choice between R86 and D23, log entry 16). -/
def Obligations.SetregRunsToItsEnd : Prop :=
  ∀ (s : State) (addr value : Byte) (r : Response) (rest : List Event),
    s.st = .idle → s.codesLegal = true →
    s.inputs = [commandEvent (encode (.setreg addr value)), .seq (.response r)] ++ rest →
    ∃ t, (if addr ≤ 0x02 then RunsTo 2 s t ∧ t.inputs = rest ∧
          t.txlog = s.txlog ++ [.issued (txnWrite s.cfg.devAddr addr value),
            .outcome (if r.ok then .ok [] else .fail)] ∧
          t.errcode = (if r.ok then 0 else 2) ∧ t.errstage = (if r.ok then 0 else 5)
        else RunsTo 1 s t ∧ t.inputs = .seq (.response r) :: rest ∧ t.txlog = s.txlog ∧
          t.errcode = 3 ∧ t.errstage = 1) ∧
      t.completed ∧ t.lAddr = addr ∧ t.lData = value ∧
      (t.err = false ↔ addr ≤ 0x02 ∧ r.ok = true) ∧ t.valid = s.valid ∧ t.press = s.press ∧ t.temp = s.temp ∧
      t.rawInputs = s.rawInputs

/-- A script's `CMD` line is its `HW` line at 0x00 with the assembled word (R72). -/
def Obligations.ScriptCommandIsAHostWrite : Prop :=
  ∀ (reads : Nat) (c : AsmCommand) (w : Word) (s : State), assemble c = .ok w →
    runLine reads (.cmd c) s = runLine reads (.hw 0x00 w) s
end

