-- ==== Sys2Proof/Laws/State.lean ====
section
/-! SUPPORT. The small lemmas of the named state updates: one per field per update, true by `rfl`, so that no proof
unfolds a record update. -/

namespace Sys2Proof.Machine

variable (s : State)

/-! ### `State.clearRecord` -/

@[simp] theorem State.clearRecord_cfg : (State.clearRecord s).cfg = s.cfg := rfl
@[simp] theorem State.clearRecord_st : (State.clearRecord s).st = s.st := rfl
@[simp] theorem State.clearRecord_a0Raw : (State.clearRecord s).a0Raw = s.a0Raw := rfl
@[simp] theorem State.clearRecord_b1Raw : (State.clearRecord s).b1Raw = s.b1Raw := rfl
@[simp] theorem State.clearRecord_b2Raw : (State.clearRecord s).b2Raw = s.b2Raw := rfl
@[simp] theorem State.clearRecord_c12Raw : (State.clearRecord s).c12Raw = s.c12Raw := rfl
@[simp] theorem State.clearRecord_padc : (State.clearRecord s).padc = s.padc := rfl
@[simp] theorem State.clearRecord_tadc : (State.clearRecord s).tadc = s.tadc := rfl
@[simp] theorem State.clearRecord_lAddr : (State.clearRecord s).lAddr = s.lAddr := rfl
@[simp] theorem State.clearRecord_lData : (State.clearRecord s).lData = s.lData := rfl
@[simp] theorem State.clearRecord_wcnt : (State.clearRecord s).wcnt = s.wcnt := rfl
@[simp] theorem State.clearRecord_done : (State.clearRecord s).done = false := rfl
@[simp] theorem State.clearRecord_err : (State.clearRecord s).err = false := rfl
@[simp] theorem State.clearRecord_valid : (State.clearRecord s).valid = s.valid := rfl
@[simp] theorem State.clearRecord_overrun : (State.clearRecord s).overrun = false := rfl
@[simp] theorem State.clearRecord_errcode : (State.clearRecord s).errcode = errNone := rfl
@[simp] theorem State.clearRecord_errstage : (State.clearRecord s).errstage = stageNone := rfl
@[simp] theorem State.clearRecord_press : (State.clearRecord s).press = s.press := rfl
@[simp] theorem State.clearRecord_temp : (State.clearRecord s).temp = s.temp := rfl
@[simp] theorem State.clearRecord_req : (State.clearRecord s).req = s.req := rfl
@[simp] theorem State.clearRecord_reqValid : (State.clearRecord s).reqValid = s.reqValid := rfl
@[simp] theorem State.clearRecord_txlog : (State.clearRecord s).txlog = s.txlog := rfl
@[simp] theorem State.clearRecord_hostAnswer : (State.clearRecord s).hostAnswer = s.hostAnswer := rfl
@[simp] theorem State.clearRecord_inputs : (State.clearRecord s).inputs = s.inputs := rfl

/-! ### `State.setOverrun` -/

@[simp] theorem State.setOverrun_cfg : (State.setOverrun s).cfg = s.cfg := rfl
@[simp] theorem State.setOverrun_st : (State.setOverrun s).st = s.st := rfl
@[simp] theorem State.setOverrun_a0Raw : (State.setOverrun s).a0Raw = s.a0Raw := rfl
@[simp] theorem State.setOverrun_b1Raw : (State.setOverrun s).b1Raw = s.b1Raw := rfl
@[simp] theorem State.setOverrun_b2Raw : (State.setOverrun s).b2Raw = s.b2Raw := rfl
@[simp] theorem State.setOverrun_c12Raw : (State.setOverrun s).c12Raw = s.c12Raw := rfl
@[simp] theorem State.setOverrun_padc : (State.setOverrun s).padc = s.padc := rfl
@[simp] theorem State.setOverrun_tadc : (State.setOverrun s).tadc = s.tadc := rfl
@[simp] theorem State.setOverrun_lAddr : (State.setOverrun s).lAddr = s.lAddr := rfl
@[simp] theorem State.setOverrun_lData : (State.setOverrun s).lData = s.lData := rfl
@[simp] theorem State.setOverrun_wcnt : (State.setOverrun s).wcnt = s.wcnt := rfl
@[simp] theorem State.setOverrun_done : (State.setOverrun s).done = s.done := rfl
@[simp] theorem State.setOverrun_err : (State.setOverrun s).err = s.err := rfl
@[simp] theorem State.setOverrun_valid : (State.setOverrun s).valid = s.valid := rfl
@[simp] theorem State.setOverrun_overrun : (State.setOverrun s).overrun = true := rfl
@[simp] theorem State.setOverrun_errcode : (State.setOverrun s).errcode = s.errcode := rfl
@[simp] theorem State.setOverrun_errstage : (State.setOverrun s).errstage = s.errstage := rfl
@[simp] theorem State.setOverrun_press : (State.setOverrun s).press = s.press := rfl
@[simp] theorem State.setOverrun_temp : (State.setOverrun s).temp = s.temp := rfl
@[simp] theorem State.setOverrun_req : (State.setOverrun s).req = s.req := rfl
@[simp] theorem State.setOverrun_reqValid : (State.setOverrun s).reqValid = s.reqValid := rfl
@[simp] theorem State.setOverrun_txlog : (State.setOverrun s).txlog = s.txlog := rfl
@[simp] theorem State.setOverrun_hostAnswer : (State.setOverrun s).hostAnswer = s.hostAnswer := rfl
@[simp] theorem State.setOverrun_inputs : (State.setOverrun s).inputs = s.inputs := rfl

/-! ### `State.clearValid` -/

@[simp] theorem State.clearValid_cfg : (State.clearValid s).cfg = s.cfg := rfl
@[simp] theorem State.clearValid_st : (State.clearValid s).st = s.st := rfl
@[simp] theorem State.clearValid_a0Raw : (State.clearValid s).a0Raw = s.a0Raw := rfl
@[simp] theorem State.clearValid_b1Raw : (State.clearValid s).b1Raw = s.b1Raw := rfl
@[simp] theorem State.clearValid_b2Raw : (State.clearValid s).b2Raw = s.b2Raw := rfl
@[simp] theorem State.clearValid_c12Raw : (State.clearValid s).c12Raw = s.c12Raw := rfl
@[simp] theorem State.clearValid_padc : (State.clearValid s).padc = s.padc := rfl
@[simp] theorem State.clearValid_tadc : (State.clearValid s).tadc = s.tadc := rfl
@[simp] theorem State.clearValid_lAddr : (State.clearValid s).lAddr = s.lAddr := rfl
@[simp] theorem State.clearValid_lData : (State.clearValid s).lData = s.lData := rfl
@[simp] theorem State.clearValid_wcnt : (State.clearValid s).wcnt = s.wcnt := rfl
@[simp] theorem State.clearValid_done : (State.clearValid s).done = s.done := rfl
@[simp] theorem State.clearValid_err : (State.clearValid s).err = s.err := rfl
@[simp] theorem State.clearValid_valid : (State.clearValid s).valid = false := rfl
@[simp] theorem State.clearValid_overrun : (State.clearValid s).overrun = s.overrun := rfl
@[simp] theorem State.clearValid_errcode : (State.clearValid s).errcode = s.errcode := rfl
@[simp] theorem State.clearValid_errstage : (State.clearValid s).errstage = s.errstage := rfl
@[simp] theorem State.clearValid_press : (State.clearValid s).press = s.press := rfl
@[simp] theorem State.clearValid_temp : (State.clearValid s).temp = s.temp := rfl
@[simp] theorem State.clearValid_req : (State.clearValid s).req = s.req := rfl
@[simp] theorem State.clearValid_reqValid : (State.clearValid s).reqValid = s.reqValid := rfl
@[simp] theorem State.clearValid_txlog : (State.clearValid s).txlog = s.txlog := rfl
@[simp] theorem State.clearValid_hostAnswer : (State.clearValid s).hostAnswer = s.hostAnswer := rfl
@[simp] theorem State.clearValid_inputs : (State.clearValid s).inputs = s.inputs := rfl

/-! ### `State.finish` -/

@[simp] theorem State.finish_cfg : (State.finish s).cfg = s.cfg := rfl
@[simp] theorem State.finish_st : (State.finish s).st = .idle := rfl
@[simp] theorem State.finish_a0Raw : (State.finish s).a0Raw = s.a0Raw := rfl
@[simp] theorem State.finish_b1Raw : (State.finish s).b1Raw = s.b1Raw := rfl
@[simp] theorem State.finish_b2Raw : (State.finish s).b2Raw = s.b2Raw := rfl
@[simp] theorem State.finish_c12Raw : (State.finish s).c12Raw = s.c12Raw := rfl
@[simp] theorem State.finish_padc : (State.finish s).padc = s.padc := rfl
@[simp] theorem State.finish_tadc : (State.finish s).tadc = s.tadc := rfl
@[simp] theorem State.finish_lAddr : (State.finish s).lAddr = s.lAddr := rfl
@[simp] theorem State.finish_lData : (State.finish s).lData = s.lData := rfl
@[simp] theorem State.finish_wcnt : (State.finish s).wcnt = s.wcnt := rfl
@[simp] theorem State.finish_done : (State.finish s).done = true := rfl
@[simp] theorem State.finish_err : (State.finish s).err = s.err := rfl
@[simp] theorem State.finish_valid : (State.finish s).valid = s.valid := rfl
@[simp] theorem State.finish_overrun : (State.finish s).overrun = s.overrun := rfl
@[simp] theorem State.finish_errcode : (State.finish s).errcode = s.errcode := rfl
@[simp] theorem State.finish_errstage : (State.finish s).errstage = s.errstage := rfl
@[simp] theorem State.finish_press : (State.finish s).press = s.press := rfl
@[simp] theorem State.finish_temp : (State.finish s).temp = s.temp := rfl
@[simp] theorem State.finish_req : (State.finish s).req = s.req := rfl
@[simp] theorem State.finish_reqValid : (State.finish s).reqValid = s.reqValid := rfl
@[simp] theorem State.finish_txlog : (State.finish s).txlog = s.txlog := rfl
@[simp] theorem State.finish_hostAnswer : (State.finish s).hostAnswer = s.hostAnswer := rfl
@[simp] theorem State.finish_inputs : (State.finish s).inputs = s.inputs := rfl

/-! ### `State.issue` -/

@[simp] theorem State.issue_cfg (q : Request) : (State.issue q s).cfg = s.cfg := rfl
@[simp] theorem State.issue_st (q : Request) : (State.issue q s).st = s.st := rfl
@[simp] theorem State.issue_a0Raw (q : Request) : (State.issue q s).a0Raw = s.a0Raw := rfl
@[simp] theorem State.issue_b1Raw (q : Request) : (State.issue q s).b1Raw = s.b1Raw := rfl
@[simp] theorem State.issue_b2Raw (q : Request) : (State.issue q s).b2Raw = s.b2Raw := rfl
@[simp] theorem State.issue_c12Raw (q : Request) : (State.issue q s).c12Raw = s.c12Raw := rfl
@[simp] theorem State.issue_padc (q : Request) : (State.issue q s).padc = s.padc := rfl
@[simp] theorem State.issue_tadc (q : Request) : (State.issue q s).tadc = s.tadc := rfl
@[simp] theorem State.issue_lAddr (q : Request) : (State.issue q s).lAddr = s.lAddr := rfl
@[simp] theorem State.issue_lData (q : Request) : (State.issue q s).lData = s.lData := rfl
@[simp] theorem State.issue_wcnt (q : Request) : (State.issue q s).wcnt = s.wcnt := rfl
@[simp] theorem State.issue_done (q : Request) : (State.issue q s).done = s.done := rfl
@[simp] theorem State.issue_err (q : Request) : (State.issue q s).err = s.err := rfl
@[simp] theorem State.issue_valid (q : Request) : (State.issue q s).valid = s.valid := rfl
@[simp] theorem State.issue_overrun (q : Request) : (State.issue q s).overrun = s.overrun := rfl
@[simp] theorem State.issue_errcode (q : Request) : (State.issue q s).errcode = s.errcode := rfl
@[simp] theorem State.issue_errstage (q : Request) : (State.issue q s).errstage = s.errstage := rfl
@[simp] theorem State.issue_press (q : Request) : (State.issue q s).press = s.press := rfl
@[simp] theorem State.issue_temp (q : Request) : (State.issue q s).temp = s.temp := rfl
@[simp] theorem State.issue_req (q : Request) : (State.issue q s).req = some q := rfl
@[simp] theorem State.issue_reqValid (q : Request) : (State.issue q s).reqValid = true := rfl
@[simp] theorem State.issue_txlog (q : Request) : (State.issue q s).txlog = s.txlog ++ [.issued q] := rfl
@[simp] theorem State.issue_hostAnswer (q : Request) : (State.issue q s).hostAnswer = s.hostAnswer := rfl
@[simp] theorem State.issue_inputs (q : Request) : (State.issue q s).inputs = s.inputs := rfl

/-! ### `State.taken` -/

@[simp] theorem State.taken_cfg : (State.taken s).cfg = s.cfg := rfl
@[simp] theorem State.taken_st : (State.taken s).st = s.st := rfl
@[simp] theorem State.taken_a0Raw : (State.taken s).a0Raw = s.a0Raw := rfl
@[simp] theorem State.taken_b1Raw : (State.taken s).b1Raw = s.b1Raw := rfl
@[simp] theorem State.taken_b2Raw : (State.taken s).b2Raw = s.b2Raw := rfl
@[simp] theorem State.taken_c12Raw : (State.taken s).c12Raw = s.c12Raw := rfl
@[simp] theorem State.taken_padc : (State.taken s).padc = s.padc := rfl
@[simp] theorem State.taken_tadc : (State.taken s).tadc = s.tadc := rfl
@[simp] theorem State.taken_lAddr : (State.taken s).lAddr = s.lAddr := rfl
@[simp] theorem State.taken_lData : (State.taken s).lData = s.lData := rfl
@[simp] theorem State.taken_wcnt : (State.taken s).wcnt = s.wcnt := rfl
@[simp] theorem State.taken_done : (State.taken s).done = s.done := rfl
@[simp] theorem State.taken_err : (State.taken s).err = s.err := rfl
@[simp] theorem State.taken_valid : (State.taken s).valid = s.valid := rfl
@[simp] theorem State.taken_overrun : (State.taken s).overrun = s.overrun := rfl
@[simp] theorem State.taken_errcode : (State.taken s).errcode = s.errcode := rfl
@[simp] theorem State.taken_errstage : (State.taken s).errstage = s.errstage := rfl
@[simp] theorem State.taken_press : (State.taken s).press = s.press := rfl
@[simp] theorem State.taken_temp : (State.taken s).temp = s.temp := rfl
@[simp] theorem State.taken_req : (State.taken s).req = s.req := rfl
@[simp] theorem State.taken_reqValid : (State.taken s).reqValid = false := rfl
@[simp] theorem State.taken_txlog : (State.taken s).txlog = s.txlog := rfl
@[simp] theorem State.taken_hostAnswer : (State.taken s).hostAnswer = s.hostAnswer := rfl
@[simp] theorem State.taken_inputs : (State.taken s).inputs = s.inputs := rfl

/-! ### `State.settle` -/

@[simp] theorem State.settle_cfg (o : TxnOutcome) : (State.settle o s).cfg = s.cfg := rfl
@[simp] theorem State.settle_st (o : TxnOutcome) : (State.settle o s).st = s.st := rfl
@[simp] theorem State.settle_a0Raw (o : TxnOutcome) : (State.settle o s).a0Raw = s.a0Raw := rfl
@[simp] theorem State.settle_b1Raw (o : TxnOutcome) : (State.settle o s).b1Raw = s.b1Raw := rfl
@[simp] theorem State.settle_b2Raw (o : TxnOutcome) : (State.settle o s).b2Raw = s.b2Raw := rfl
@[simp] theorem State.settle_c12Raw (o : TxnOutcome) : (State.settle o s).c12Raw = s.c12Raw := rfl
@[simp] theorem State.settle_padc (o : TxnOutcome) : (State.settle o s).padc = s.padc := rfl
@[simp] theorem State.settle_tadc (o : TxnOutcome) : (State.settle o s).tadc = s.tadc := rfl
@[simp] theorem State.settle_lAddr (o : TxnOutcome) : (State.settle o s).lAddr = s.lAddr := rfl
@[simp] theorem State.settle_lData (o : TxnOutcome) : (State.settle o s).lData = s.lData := rfl
@[simp] theorem State.settle_wcnt (o : TxnOutcome) : (State.settle o s).wcnt = s.wcnt := rfl
@[simp] theorem State.settle_done (o : TxnOutcome) : (State.settle o s).done = s.done := rfl
@[simp] theorem State.settle_err (o : TxnOutcome) : (State.settle o s).err = s.err := rfl
@[simp] theorem State.settle_valid (o : TxnOutcome) : (State.settle o s).valid = s.valid := rfl
@[simp] theorem State.settle_overrun (o : TxnOutcome) : (State.settle o s).overrun = s.overrun := rfl
@[simp] theorem State.settle_errcode (o : TxnOutcome) : (State.settle o s).errcode = s.errcode := rfl
@[simp] theorem State.settle_errstage (o : TxnOutcome) : (State.settle o s).errstage = s.errstage := rfl
@[simp] theorem State.settle_press (o : TxnOutcome) : (State.settle o s).press = s.press := rfl
@[simp] theorem State.settle_temp (o : TxnOutcome) : (State.settle o s).temp = s.temp := rfl
@[simp] theorem State.settle_req (o : TxnOutcome) : (State.settle o s).req = none := rfl
@[simp] theorem State.settle_reqValid (o : TxnOutcome) : (State.settle o s).reqValid = false := rfl
@[simp] theorem State.settle_txlog (o : TxnOutcome) : (State.settle o s).txlog = s.txlog ++ [.outcome o] := rfl
@[simp] theorem State.settle_hostAnswer (o : TxnOutcome) : (State.settle o s).hostAnswer = s.hostAnswer := rfl
@[simp] theorem State.settle_inputs (o : TxnOutcome) : (State.settle o s).inputs = s.inputs := rfl

/-! ### `State.abort` -/

@[simp] theorem State.abort_cfg (c g : BitVec 4) : (State.abort c g s).cfg = s.cfg := rfl
@[simp] theorem State.abort_st (c g : BitVec 4) : (State.abort c g s).st = .idle := rfl
@[simp] theorem State.abort_a0Raw (c g : BitVec 4) : (State.abort c g s).a0Raw = s.a0Raw := rfl
@[simp] theorem State.abort_b1Raw (c g : BitVec 4) : (State.abort c g s).b1Raw = s.b1Raw := rfl
@[simp] theorem State.abort_b2Raw (c g : BitVec 4) : (State.abort c g s).b2Raw = s.b2Raw := rfl
@[simp] theorem State.abort_c12Raw (c g : BitVec 4) : (State.abort c g s).c12Raw = s.c12Raw := rfl
@[simp] theorem State.abort_padc (c g : BitVec 4) : (State.abort c g s).padc = s.padc := rfl
@[simp] theorem State.abort_tadc (c g : BitVec 4) : (State.abort c g s).tadc = s.tadc := rfl
@[simp] theorem State.abort_lAddr (c g : BitVec 4) : (State.abort c g s).lAddr = s.lAddr := rfl
@[simp] theorem State.abort_lData (c g : BitVec 4) : (State.abort c g s).lData = s.lData := rfl
@[simp] theorem State.abort_wcnt (c g : BitVec 4) : (State.abort c g s).wcnt = s.wcnt := rfl
@[simp] theorem State.abort_done (c g : BitVec 4) : (State.abort c g s).done = true := rfl
@[simp] theorem State.abort_err (c g : BitVec 4) : (State.abort c g s).err = true := rfl
@[simp] theorem State.abort_valid (c g : BitVec 4) : (State.abort c g s).valid = s.valid := rfl
@[simp] theorem State.abort_overrun (c g : BitVec 4) : (State.abort c g s).overrun = s.overrun := rfl
@[simp] theorem State.abort_errcode (c g : BitVec 4) : (State.abort c g s).errcode = c := rfl
@[simp] theorem State.abort_errstage (c g : BitVec 4) : (State.abort c g s).errstage = g := rfl
@[simp] theorem State.abort_press (c g : BitVec 4) : (State.abort c g s).press = s.press := rfl
@[simp] theorem State.abort_temp (c g : BitVec 4) : (State.abort c g s).temp = s.temp := rfl
@[simp] theorem State.abort_req (c g : BitVec 4) : (State.abort c g s).req = s.req := rfl
@[simp] theorem State.abort_reqValid (c g : BitVec 4) : (State.abort c g s).reqValid = s.reqValid := rfl
@[simp] theorem State.abort_txlog (c g : BitVec 4) : (State.abort c g s).txlog = s.txlog := rfl
@[simp] theorem State.abort_hostAnswer (c g : BitVec 4) : (State.abort c g s).hostAnswer = s.hostAnswer := rfl
@[simp] theorem State.abort_inputs (c g : BitVec 4) : (State.abort c g s).inputs = s.inputs := rfl

/-! ### `State.captureCoef` -/

@[simp] theorem State.captureCoef_cfg (r : Response) : (State.captureCoef r s).cfg = s.cfg := rfl
@[simp] theorem State.captureCoef_st (r : Response) : (State.captureCoef r s).st = s.st := rfl
@[simp] theorem State.captureCoef_a0Raw (r : Response) : (State.captureCoef r s).a0Raw = be16 (r.byte 0) (r.byte 1) := rfl
@[simp] theorem State.captureCoef_b1Raw (r : Response) : (State.captureCoef r s).b1Raw = be16 (r.byte 2) (r.byte 3) := rfl
@[simp] theorem State.captureCoef_b2Raw (r : Response) : (State.captureCoef r s).b2Raw = be16 (r.byte 4) (r.byte 5) := rfl
@[simp] theorem State.captureCoef_c12Raw (r : Response) : (State.captureCoef r s).c12Raw = c12Field (r.byte 6) (r.byte 7) := rfl
@[simp] theorem State.captureCoef_padc (r : Response) : (State.captureCoef r s).padc = s.padc := rfl
@[simp] theorem State.captureCoef_tadc (r : Response) : (State.captureCoef r s).tadc = s.tadc := rfl
@[simp] theorem State.captureCoef_lAddr (r : Response) : (State.captureCoef r s).lAddr = s.lAddr := rfl
@[simp] theorem State.captureCoef_lData (r : Response) : (State.captureCoef r s).lData = s.lData := rfl
@[simp] theorem State.captureCoef_wcnt (r : Response) : (State.captureCoef r s).wcnt = s.wcnt := rfl
@[simp] theorem State.captureCoef_done (r : Response) : (State.captureCoef r s).done = s.done := rfl
@[simp] theorem State.captureCoef_err (r : Response) : (State.captureCoef r s).err = s.err := rfl
@[simp] theorem State.captureCoef_valid (r : Response) : (State.captureCoef r s).valid = s.valid := rfl
@[simp] theorem State.captureCoef_overrun (r : Response) : (State.captureCoef r s).overrun = s.overrun := rfl
@[simp] theorem State.captureCoef_errcode (r : Response) : (State.captureCoef r s).errcode = s.errcode := rfl
@[simp] theorem State.captureCoef_errstage (r : Response) : (State.captureCoef r s).errstage = s.errstage := rfl
@[simp] theorem State.captureCoef_press (r : Response) : (State.captureCoef r s).press = s.press := rfl
@[simp] theorem State.captureCoef_temp (r : Response) : (State.captureCoef r s).temp = s.temp := rfl
@[simp] theorem State.captureCoef_req (r : Response) : (State.captureCoef r s).req = s.req := rfl
@[simp] theorem State.captureCoef_reqValid (r : Response) : (State.captureCoef r s).reqValid = s.reqValid := rfl
@[simp] theorem State.captureCoef_txlog (r : Response) : (State.captureCoef r s).txlog = s.txlog := rfl
@[simp] theorem State.captureCoef_hostAnswer (r : Response) : (State.captureCoef r s).hostAnswer = s.hostAnswer := rfl
@[simp] theorem State.captureCoef_inputs (r : Response) : (State.captureCoef r s).inputs = s.inputs := rfl

/-! ### `State.captureAdc` -/

@[simp] theorem State.captureAdc_cfg (r : Response) : (State.captureAdc r s).cfg = s.cfg := rfl
@[simp] theorem State.captureAdc_st (r : Response) : (State.captureAdc r s).st = s.st := rfl
@[simp] theorem State.captureAdc_a0Raw (r : Response) : (State.captureAdc r s).a0Raw = s.a0Raw := rfl
@[simp] theorem State.captureAdc_b1Raw (r : Response) : (State.captureAdc r s).b1Raw = s.b1Raw := rfl
@[simp] theorem State.captureAdc_b2Raw (r : Response) : (State.captureAdc r s).b2Raw = s.b2Raw := rfl
@[simp] theorem State.captureAdc_c12Raw (r : Response) : (State.captureAdc r s).c12Raw = s.c12Raw := rfl
@[simp] theorem State.captureAdc_padc (r : Response) : (State.captureAdc r s).padc = adcField (r.byte 0) (r.byte 1) := rfl
@[simp] theorem State.captureAdc_tadc (r : Response) : (State.captureAdc r s).tadc = adcField (r.byte 2) (r.byte 3) := rfl
@[simp] theorem State.captureAdc_lAddr (r : Response) : (State.captureAdc r s).lAddr = s.lAddr := rfl
@[simp] theorem State.captureAdc_lData (r : Response) : (State.captureAdc r s).lData = s.lData := rfl
@[simp] theorem State.captureAdc_wcnt (r : Response) : (State.captureAdc r s).wcnt = s.wcnt := rfl
@[simp] theorem State.captureAdc_done (r : Response) : (State.captureAdc r s).done = s.done := rfl
@[simp] theorem State.captureAdc_err (r : Response) : (State.captureAdc r s).err = s.err := rfl
@[simp] theorem State.captureAdc_valid (r : Response) : (State.captureAdc r s).valid = s.valid := rfl
@[simp] theorem State.captureAdc_overrun (r : Response) : (State.captureAdc r s).overrun = s.overrun := rfl
@[simp] theorem State.captureAdc_errcode (r : Response) : (State.captureAdc r s).errcode = s.errcode := rfl
@[simp] theorem State.captureAdc_errstage (r : Response) : (State.captureAdc r s).errstage = s.errstage := rfl
@[simp] theorem State.captureAdc_press (r : Response) : (State.captureAdc r s).press = s.press := rfl
@[simp] theorem State.captureAdc_temp (r : Response) : (State.captureAdc r s).temp = s.temp := rfl
@[simp] theorem State.captureAdc_req (r : Response) : (State.captureAdc r s).req = s.req := rfl
@[simp] theorem State.captureAdc_reqValid (r : Response) : (State.captureAdc r s).reqValid = s.reqValid := rfl
@[simp] theorem State.captureAdc_txlog (r : Response) : (State.captureAdc r s).txlog = s.txlog := rfl
@[simp] theorem State.captureAdc_hostAnswer (r : Response) : (State.captureAdc r s).hostAnswer = s.hostAnswer := rfl
@[simp] theorem State.captureAdc_inputs (r : Response) : (State.captureAdc r s).inputs = s.inputs := rfl

/-! ### `State.latch` -/

@[simp] theorem State.latch_cfg (a v : Byte) : (State.latch a v s).cfg = s.cfg := rfl
@[simp] theorem State.latch_st (a v : Byte) : (State.latch a v s).st = s.st := rfl
@[simp] theorem State.latch_a0Raw (a v : Byte) : (State.latch a v s).a0Raw = s.a0Raw := rfl
@[simp] theorem State.latch_b1Raw (a v : Byte) : (State.latch a v s).b1Raw = s.b1Raw := rfl
@[simp] theorem State.latch_b2Raw (a v : Byte) : (State.latch a v s).b2Raw = s.b2Raw := rfl
@[simp] theorem State.latch_c12Raw (a v : Byte) : (State.latch a v s).c12Raw = s.c12Raw := rfl
@[simp] theorem State.latch_padc (a v : Byte) : (State.latch a v s).padc = s.padc := rfl
@[simp] theorem State.latch_tadc (a v : Byte) : (State.latch a v s).tadc = s.tadc := rfl
@[simp] theorem State.latch_lAddr (a v : Byte) : (State.latch a v s).lAddr = a := rfl
@[simp] theorem State.latch_lData (a v : Byte) : (State.latch a v s).lData = v := rfl
@[simp] theorem State.latch_wcnt (a v : Byte) : (State.latch a v s).wcnt = s.wcnt := rfl
@[simp] theorem State.latch_done (a v : Byte) : (State.latch a v s).done = s.done := rfl
@[simp] theorem State.latch_err (a v : Byte) : (State.latch a v s).err = s.err := rfl
@[simp] theorem State.latch_valid (a v : Byte) : (State.latch a v s).valid = s.valid := rfl
@[simp] theorem State.latch_overrun (a v : Byte) : (State.latch a v s).overrun = s.overrun := rfl
@[simp] theorem State.latch_errcode (a v : Byte) : (State.latch a v s).errcode = s.errcode := rfl
@[simp] theorem State.latch_errstage (a v : Byte) : (State.latch a v s).errstage = s.errstage := rfl
@[simp] theorem State.latch_press (a v : Byte) : (State.latch a v s).press = s.press := rfl
@[simp] theorem State.latch_temp (a v : Byte) : (State.latch a v s).temp = s.temp := rfl
@[simp] theorem State.latch_req (a v : Byte) : (State.latch a v s).req = s.req := rfl
@[simp] theorem State.latch_reqValid (a v : Byte) : (State.latch a v s).reqValid = s.reqValid := rfl
@[simp] theorem State.latch_txlog (a v : Byte) : (State.latch a v s).txlog = s.txlog := rfl
@[simp] theorem State.latch_hostAnswer (a v : Byte) : (State.latch a v s).hostAnswer = s.hostAnswer := rfl
@[simp] theorem State.latch_inputs (a v : Byte) : (State.latch a v s).inputs = s.inputs := rfl

/-! ### `State.answer` -/

@[simp] theorem State.answer_cfg (a : HostAccess) : (State.answer a s).cfg = s.cfg := rfl
@[simp] theorem State.answer_st (a : HostAccess) : (State.answer a s).st = s.st := rfl
@[simp] theorem State.answer_a0Raw (a : HostAccess) : (State.answer a s).a0Raw = s.a0Raw := rfl
@[simp] theorem State.answer_b1Raw (a : HostAccess) : (State.answer a s).b1Raw = s.b1Raw := rfl
@[simp] theorem State.answer_b2Raw (a : HostAccess) : (State.answer a s).b2Raw = s.b2Raw := rfl
@[simp] theorem State.answer_c12Raw (a : HostAccess) : (State.answer a s).c12Raw = s.c12Raw := rfl
@[simp] theorem State.answer_padc (a : HostAccess) : (State.answer a s).padc = s.padc := rfl
@[simp] theorem State.answer_tadc (a : HostAccess) : (State.answer a s).tadc = s.tadc := rfl
@[simp] theorem State.answer_lAddr (a : HostAccess) : (State.answer a s).lAddr = s.lAddr := rfl
@[simp] theorem State.answer_lData (a : HostAccess) : (State.answer a s).lData = s.lData := rfl
@[simp] theorem State.answer_wcnt (a : HostAccess) : (State.answer a s).wcnt = s.wcnt := rfl
@[simp] theorem State.answer_done (a : HostAccess) : (State.answer a s).done = s.done := rfl
@[simp] theorem State.answer_err (a : HostAccess) : (State.answer a s).err = s.err := rfl
@[simp] theorem State.answer_valid (a : HostAccess) : (State.answer a s).valid = s.valid := rfl
@[simp] theorem State.answer_overrun (a : HostAccess) : (State.answer a s).overrun = s.overrun := rfl
@[simp] theorem State.answer_errcode (a : HostAccess) : (State.answer a s).errcode = s.errcode := rfl
@[simp] theorem State.answer_errstage (a : HostAccess) : (State.answer a s).errstage = s.errstage := rfl
@[simp] theorem State.answer_press (a : HostAccess) : (State.answer a s).press = s.press := rfl
@[simp] theorem State.answer_temp (a : HostAccess) : (State.answer a s).temp = s.temp := rfl
@[simp] theorem State.answer_req (a : HostAccess) : (State.answer a s).req = s.req := rfl
@[simp] theorem State.answer_reqValid (a : HostAccess) : (State.answer a s).reqValid = s.reqValid := rfl
@[simp] theorem State.answer_txlog (a : HostAccess) : (State.answer a s).txlog = s.txlog := rfl
@[simp] theorem State.answer_hostAnswer (a : HostAccess) : (State.answer a s).hostAnswer = some (s.answerTo a) := rfl
@[simp] theorem State.answer_inputs (a : HostAccess) : (State.answer a s).inputs = s.inputs := rfl

/-! ### `State.popInput` -/

@[simp] theorem State.popInput_cfg : (State.popInput s).cfg = s.cfg := rfl
@[simp] theorem State.popInput_st : (State.popInput s).st = s.st := rfl
@[simp] theorem State.popInput_a0Raw : (State.popInput s).a0Raw = s.a0Raw := rfl
@[simp] theorem State.popInput_b1Raw : (State.popInput s).b1Raw = s.b1Raw := rfl
@[simp] theorem State.popInput_b2Raw : (State.popInput s).b2Raw = s.b2Raw := rfl
@[simp] theorem State.popInput_c12Raw : (State.popInput s).c12Raw = s.c12Raw := rfl
@[simp] theorem State.popInput_padc : (State.popInput s).padc = s.padc := rfl
@[simp] theorem State.popInput_tadc : (State.popInput s).tadc = s.tadc := rfl
@[simp] theorem State.popInput_lAddr : (State.popInput s).lAddr = s.lAddr := rfl
@[simp] theorem State.popInput_lData : (State.popInput s).lData = s.lData := rfl
@[simp] theorem State.popInput_wcnt : (State.popInput s).wcnt = s.wcnt := rfl
@[simp] theorem State.popInput_done : (State.popInput s).done = s.done := rfl
@[simp] theorem State.popInput_err : (State.popInput s).err = s.err := rfl
@[simp] theorem State.popInput_valid : (State.popInput s).valid = s.valid := rfl
@[simp] theorem State.popInput_overrun : (State.popInput s).overrun = s.overrun := rfl
@[simp] theorem State.popInput_errcode : (State.popInput s).errcode = s.errcode := rfl
@[simp] theorem State.popInput_errstage : (State.popInput s).errstage = s.errstage := rfl
@[simp] theorem State.popInput_press : (State.popInput s).press = s.press := rfl
@[simp] theorem State.popInput_temp : (State.popInput s).temp = s.temp := rfl
@[simp] theorem State.popInput_req : (State.popInput s).req = s.req := rfl
@[simp] theorem State.popInput_reqValid : (State.popInput s).reqValid = s.reqValid := rfl
@[simp] theorem State.popInput_txlog : (State.popInput s).txlog = s.txlog := rfl
@[simp] theorem State.popInput_hostAnswer : (State.popInput s).hostAnswer = s.hostAnswer := rfl
@[simp] theorem State.popInput_inputs : (State.popInput s).inputs = s.inputs.tail := rfl

/-! ### `State.place` -/

@[simp] theorem State.place_cfg (e : Event) : (State.place e s).cfg = s.cfg := rfl
@[simp] theorem State.place_st (e : Event) : (State.place e s).st = s.st := rfl
@[simp] theorem State.place_a0Raw (e : Event) : (State.place e s).a0Raw = s.a0Raw := rfl
@[simp] theorem State.place_b1Raw (e : Event) : (State.place e s).b1Raw = s.b1Raw := rfl
@[simp] theorem State.place_b2Raw (e : Event) : (State.place e s).b2Raw = s.b2Raw := rfl
@[simp] theorem State.place_c12Raw (e : Event) : (State.place e s).c12Raw = s.c12Raw := rfl
@[simp] theorem State.place_padc (e : Event) : (State.place e s).padc = s.padc := rfl
@[simp] theorem State.place_tadc (e : Event) : (State.place e s).tadc = s.tadc := rfl
@[simp] theorem State.place_lAddr (e : Event) : (State.place e s).lAddr = s.lAddr := rfl
@[simp] theorem State.place_lData (e : Event) : (State.place e s).lData = s.lData := rfl
@[simp] theorem State.place_wcnt (e : Event) : (State.place e s).wcnt = s.wcnt := rfl
@[simp] theorem State.place_done (e : Event) : (State.place e s).done = s.done := rfl
@[simp] theorem State.place_err (e : Event) : (State.place e s).err = s.err := rfl
@[simp] theorem State.place_valid (e : Event) : (State.place e s).valid = s.valid := rfl
@[simp] theorem State.place_overrun (e : Event) : (State.place e s).overrun = s.overrun := rfl
@[simp] theorem State.place_errcode (e : Event) : (State.place e s).errcode = s.errcode := rfl
@[simp] theorem State.place_errstage (e : Event) : (State.place e s).errstage = s.errstage := rfl
@[simp] theorem State.place_press (e : Event) : (State.place e s).press = s.press := rfl
@[simp] theorem State.place_temp (e : Event) : (State.place e s).temp = s.temp := rfl
@[simp] theorem State.place_req (e : Event) : (State.place e s).req = s.req := rfl
@[simp] theorem State.place_reqValid (e : Event) : (State.place e s).reqValid = s.reqValid := rfl
@[simp] theorem State.place_txlog (e : Event) : (State.place e s).txlog = s.txlog := rfl
@[simp] theorem State.place_hostAnswer (e : Event) : (State.place e s).hostAnswer = s.hostAnswer := rfl
@[simp] theorem State.place_inputs (e : Event) : (State.place e s).inputs = e :: s.inputs := rfl

/-! ### `State.rst` -/

@[simp] theorem State.rst_cfg : s.rst.cfg = s.cfg := rfl
@[simp] theorem State.rst_st : s.rst.st = State.reset.st := rfl
@[simp] theorem State.rst_a0Raw : s.rst.a0Raw = State.reset.a0Raw := rfl
@[simp] theorem State.rst_b1Raw : s.rst.b1Raw = State.reset.b1Raw := rfl
@[simp] theorem State.rst_b2Raw : s.rst.b2Raw = State.reset.b2Raw := rfl
@[simp] theorem State.rst_c12Raw : s.rst.c12Raw = State.reset.c12Raw := rfl
@[simp] theorem State.rst_padc : s.rst.padc = State.reset.padc := rfl
@[simp] theorem State.rst_tadc : s.rst.tadc = State.reset.tadc := rfl
@[simp] theorem State.rst_lAddr : s.rst.lAddr = State.reset.lAddr := rfl
@[simp] theorem State.rst_lData : s.rst.lData = State.reset.lData := rfl
@[simp] theorem State.rst_wcnt : s.rst.wcnt = State.reset.wcnt := rfl
@[simp] theorem State.rst_done : s.rst.done = State.reset.done := rfl
@[simp] theorem State.rst_err : s.rst.err = State.reset.err := rfl
@[simp] theorem State.rst_valid : s.rst.valid = State.reset.valid := rfl
@[simp] theorem State.rst_overrun : s.rst.overrun = State.reset.overrun := rfl
@[simp] theorem State.rst_errcode : s.rst.errcode = State.reset.errcode := rfl
@[simp] theorem State.rst_errstage : s.rst.errstage = State.reset.errstage := rfl
@[simp] theorem State.rst_press : s.rst.press = State.reset.press := rfl
@[simp] theorem State.rst_temp : s.rst.temp = State.reset.temp := rfl
@[simp] theorem State.rst_req : s.rst.req = State.reset.req := rfl
@[simp] theorem State.rst_reqValid : s.rst.reqValid = State.reset.reqValid := rfl
@[simp] theorem State.rst_txlog : s.rst.txlog = State.reset.txlog := rfl
@[simp] theorem State.rst_hostAnswer : s.rst.hostAnswer = State.reset.hostAnswer := rfl
@[simp] theorem State.rst_inputs : s.rst.inputs = s.inputs := rfl

end Sys2Proof.Machine
end

