-- ==== Sys2Proof/Laws/Ops.lean ====
section
/-! SUPPORT. One lemma per shared operation, saying once everything it can do: a proof cites it instead of unfolding
the operation. -/

namespace Sys2Proof.Machine

open Host (Outcome)

/-! ### Acceptance and errors -/

theorem State.busy_iff (s : State) : s.busy = true ↔ s.st ≠ .idle := by simp [State.busy]

theorem State.busy_eq_false_iff (s : State) : s.busy = false ↔ s.st = .idle := by simp [State.busy]

theorem accept_of_busy {k : State → State} {s : State} (h : s.st ≠ .idle) : accept k s = s.setOverrun := by
  simp [accept, State.busy, h]

theorem accept_of_idle {k : State → State} {s : State} (h : s.st = .idle) : accept k s = k s.clearRecord := by
  simp [accept, State.busy, h]

/-- What a state without a reserved code is (I8). -/
theorem State.codesLegal_iff (s : State) :
    s.codesLegal = true ↔ s.st ≠ .unused ∧ s.errcode ≤ 4 ∧ s.errstage ≤ 5 := by
  simp [State.codesLegal, and_assoc]

/-- The operands that pass the guard of R49. -/
theorem writable_iff (addr : Byte) : writable addr = true ↔ addr ≤ 0x02 := by
  exact decide_eq_true_iff

/-! ### The host side -/

/-- Everything a write of a command word can do (R83 to R86). -/
theorem commandWrite_cases {w : Word} {s t : State} (h : commandWrite w s = .next t) :
    (s.st ≠ .idle ∧ t = s.setOverrun) ∨
    (s.st = .idle ∧ decode w = .command .measure ∧ t = measureAccept s.clearRecord) ∨
    (∃ addr value, s.st = .idle ∧ decode w = .command (.setreg addr value) ∧
      t = setregAccept addr value s.clearRecord) ∨
    (∃ why, s.st = .idle ∧ decode w = .illegal why ∧ t = illegalAccept s.clearRecord) := by
  by_cases hs : s.st = .idle
  · simp only [commandWrite, State.busy, hs] at h
    cases hd : decode w with
    | command i =>
      rw [hd] at h
      cases i with
      | measure =>
        simp only [exec, execMeasure, accept_of_idle hs] at h
        cases h
        exact .inr (.inl ⟨hs, rfl, rfl⟩)
      | setreg addr value =>
        simp only [exec, execSetreg, accept_of_idle hs] at h
        cases h
        exact .inr (.inr (.inl ⟨addr, value, hs, rfl, rfl⟩))
    | illegal why =>
      rw [hd] at h
      simp only [execIllegal, accept_of_idle hs] at h
      cases h
      exact .inr (.inr (.inr ⟨why, hs, rfl, rfl⟩))
  · simp only [commandWrite, (State.busy_iff s).2 hs, if_true] at h
    cases h
    exact .inl ⟨hs, rfl⟩

/-- A command write always answers a next state. -/
theorem commandWrite_completes (w : Word) (s : State) : ∃ t, commandWrite w s = .next t := by
  unfold commandWrite
  split
  · exact ⟨_, rfl⟩
  · split
    · rename_i i _
      cases i <;> exact ⟨_, rfl⟩
    · exact ⟨_, rfl⟩

/-- A legal access is one of the two forms with every byte enable set. -/
theorem HostAccess.legal_write {off : Byte} {data : Word} {be : BitVec 4}
    (h : (HostAccess.write off data be).legal = true) : be = 0b1111 := by
  rw [HostAccess.legal, Bool.and_eq_true] at h
  exact of_decide_eq_true h.2

/-- Everything a host access can do (R44): it is answered, and a legal write at 0x00 is a command write. -/
theorem hostAccess_cases {a : HostAccess} {s t : State} (h : hostAccess a s = .next t) :
    t = s.answer a ∨
    ∃ w, a = .write 0x00 w 0b1111 ∧ commandWrite w (s.answer a) = .next t := by
  cases a with
  | read off be => cases h; exact .inl rfl
  | write off data be =>
    simp only [hostAccess] at h
    split at h
    · rename_i hc
      obtain ⟨hl, rfl⟩ := hc
      obtain rfl := HostAccess.legal_write hl
      exact .inr ⟨data, rfl, h⟩
    · cases h; exact .inl rfl

/-- A host access always answers a next state. -/
theorem hostAccess_completes (a : HostAccess) (s : State) : ∃ t, hostAccess a s = .next t := by
  cases a with
  | read off be => exact ⟨_, rfl⟩
  | write off data be =>
    simp only [hostAccess]
    split
    · exact commandWrite_completes _ _
    · exact ⟨_, rfl⟩

/-- A host access while `BUSY` changes `OVERRUN` and the answer at most. -/
theorem hostAccess_of_busy {a : HostAccess} {s t : State} (hs : s.st ≠ .idle) (h : hostAccess a s = .next t) :
    t = s.answer a ∨ t = (s.answer a).setOverrun := by
  rcases hostAccess_cases h with rfl | ⟨w, _, hw⟩
  · exact .inl rfl
  · rcases commandWrite_cases hw with ⟨_, rfl⟩ | ⟨hi, _⟩ | ⟨_, _, hi, _⟩ | ⟨_, hi, _⟩
    · exact .inr rfl
    all_goals exact absurd hi hs

/-! ### The sequencer side -/

/-- Everything a tick can do (R10, R98, R100). -/
theorem onTick_cases (s : State) :
    (s.st = .delay ∧ onTick s = delayTick s) ∨ (s.st = .comp ∧ onTick s = compTick s) ∨
      (s.st ≠ .delay ∧ s.st ≠ .comp ∧ onTick s = s) := by
  unfold onTick
  cases h : s.st <;> simp

/-- Everything a response can do (R76 to R78). -/
theorem onResponse_cases {r : Response} {s t : State} (h : onResponse r s = .next t) :
    (s.req = none ∧ t = s) ∨
    ∃ q, s.req = some q ∧
      ((s.st = .coef ∧ t = coefResponse r (s.settle (r.outcome q.rlen))) ∨
       (s.st = .conv ∧ t = convResponse r (s.settle (r.outcome q.rlen))) ∨
       (s.st = .adc ∧ t = adcResponse r (s.settle (r.outcome q.rlen))) ∨
       (s.st = .setwr ∧ t = setregResponse r (s.settle (r.outcome q.rlen)))) := by
  unfold onResponse at h
  split at h
  · rename_i hq
    cases h
    exact .inl ⟨hq, rfl⟩
  · rename_i q hq
    refine .inr ⟨q, hq, ?_⟩
    simp only at h
    split at h <;> cases h <;> simp_all

/-- Everything an event of the sequencer's side can do. -/
theorem seqEvent_cases {e : SeqEvent} {s t : State} (h : seqEvent e s = .next t) :
    (e = .tick ∧ s.st = .delay ∧ t = delayTick s) ∨
    (e = .tick ∧ s.st = .comp ∧ t = compTick s) ∨
    (e = .tick ∧ s.st ≠ .delay ∧ s.st ≠ .comp ∧ t = s) ∨
    (e = .ready ∧ t = s.taken) ∨
    (∃ r, e = .response r ∧ s.req = none ∧ t = s) ∨
    ∃ r q, e = .response r ∧ s.req = some q ∧
      ((s.st = .coef ∧ t = coefResponse r (s.settle (r.outcome q.rlen))) ∨
       (s.st = .conv ∧ t = convResponse r (s.settle (r.outcome q.rlen))) ∨
       (s.st = .adc ∧ t = adcResponse r (s.settle (r.outcome q.rlen))) ∨
       (s.st = .setwr ∧ t = setregResponse r (s.settle (r.outcome q.rlen)))) := by
  cases e with
  | tick =>
    cases h
    rcases onTick_cases s with ⟨h1, h2⟩ | ⟨h1, h2⟩ | ⟨h1, h2, h3⟩
    · exact .inl ⟨rfl, h1, h2⟩
    · exact .inr (.inl ⟨rfl, h1, h2⟩)
    · exact .inr (.inr (.inl ⟨rfl, h1, h2, h3⟩))
  | ready =>
    cases h
    exact .inr (.inr (.inr (.inl ⟨rfl, rfl⟩)))
  | response r =>
    rcases onResponse_cases h with ⟨h1, h2⟩ | ⟨q, hq, hc⟩
    · exact .inr (.inr (.inr (.inr (.inl ⟨r, rfl, h1, h2⟩))))
    · exact .inr (.inr (.inr (.inr (.inr ⟨r, q, rfl, hq, hc⟩))))

/-- The sequencer's side reads neither the host bus nor `OVERRUN`: whatever they hold, the event does the same and
leaves them. -/
theorem seqEvent_update_host {e : SeqEvent} {s t : State} (x : Option HostAnswer) (o : Bool)
    (h : seqEvent e s = .next t) :
    seqEvent e { s with hostAnswer := x, overrun := o } = .next { t with hostAnswer := x, overrun := o } := by
  obtain ⟨cfg, st, a0, b1, b2, c12, padc, tadc, la, ld, wcnt, done, err, valid, ovr, ec, es, press, temp, req, rv, log,
    ans, inp⟩ := s
  cases e with
  | tick =>
    cases h
    cases st <;> simp only [seqEvent, onTick, delayTick, compTick, State.issue, State.finish, State.rawInputs] <;>
      first | rfl | (split <;> rfl)
  | ready => cases h; rfl
  | response r =>
    cases req with
    | none => cases h; rfl
    | some q =>
      cases st <;> simp only [seqEvent, onResponse, coefResponse, convResponse, adcResponse, setregResponse] at h ⊢ <;>
        cases h <;> cases r.ok <;> rfl

/-! ### Events and steps -/

/-- Everything two events at one clock edge can do (D20). -/
theorem coincide_cases {a : HostAccess} {e : SeqEvent} {s t : State} (h : coincide a e s = .next t) :
    (s.st = .idle ∧ hostAccess a s = .next t) ∨
    (s.st ≠ .idle ∧ ∃ u, hostAccess a s = .next u ∧ seqEvent e u = .next t) := by
  unfold coincide at h
  split at h
  · rename_i u hu
    by_cases hs : s.st = .idle
    · rw [if_neg (by simp [State.busy, hs])] at h
      exact .inl ⟨hs, hu.trans h⟩
    · rw [if_pos ((State.busy_iff s).2 hs)] at h
      exact .inr ⟨hs, u, hu, h⟩
  · cases h
  · cases h

/-- Everything an event can do. -/
theorem handle_cases {e : Event} {s t : State} (h : handle e s = .next t) :
    (∃ a, e = .rst a ∧ t = resetEdge a s) ∨
    (∃ a, e = .host a ∧ s.codesLegal = true ∧ hostAccess a s = .next t) ∨
    (∃ q, e = .seq q ∧ s.codesLegal = true ∧ seqEvent q s = .next t) ∨
    (∃ a q, e = .edge a q ∧ s.codesLegal = true ∧ s.st = .idle ∧ hostAccess a s = .next t) ∨
    (∃ a q u, e = .edge a q ∧ s.codesLegal = true ∧ s.st ≠ .idle ∧ hostAccess a s = .next u ∧
      seqEvent q u = .next t) := by
  cases e with
  | rst a => cases h; exact .inl ⟨a, rfl, rfl⟩
  | host a =>
    simp only [handle] at h
    split at h
    · rename_i hl; exact .inr (.inl ⟨a, rfl, hl, h⟩)
    · cases h
  | seq q =>
    simp only [handle] at h
    split at h
    · rename_i hl; exact .inr (.inr (.inl ⟨q, rfl, hl, h⟩))
    · cases h
  | edge a q =>
    simp only [handle] at h
    split at h
    · rename_i hl
      rcases coincide_cases h with ⟨hs, hh⟩ | ⟨hs, u, hu, hq⟩
      · exact .inr (.inr (.inr (.inl ⟨a, q, rfl, hl, hs, hh⟩)))
      · exact .inr (.inr (.inr (.inr ⟨a, q, u, rfl, hl, hs, hu, hq⟩)))
    · cases h

/-- A property kept by reset, by the answer on the host bus, by every command write and by every event of the
sequencer's side is kept by every event. -/
theorem handle_keeps {P : State → Prop} (hrst : ∀ s, P s → P s.rst) (hans : ∀ a s, P s → P (s.answer a))
    (hcmd : ∀ w s t, P s → commandWrite w s = .next t → P t)
    (hseq : ∀ q s t, P s → seqEvent q s = .next t → P t)
    {e : Event} {s t : State} (hs : P s) (h : handle e s = .next t) : P t := by
  have hhost : ∀ {a : HostAccess} {s t : State}, P s → hostAccess a s = .next t → P t := by
    intro a s t hs h
    rcases hostAccess_cases h with rfl | ⟨w, _, hw⟩
    · exact hans a s hs
    · exact hcmd w _ _ (hans a s hs) hw
  rcases handle_cases h with ⟨a, _, rfl⟩ | ⟨a, _, _, hh⟩ | ⟨q, _, _, hq⟩ | ⟨a, q, _, _, _, hh⟩ | ⟨a, q, u, _, _, _, hu, hq⟩
  · cases a with
    | none => exact hrst s hs
    | some a => exact hans a _ (hrst s hs)
  · exact hhost hs hh
  · exact hseq q _ _ hs hq
  · exact hhost hs hh
  · exact hseq q _ _ (hhost hs hu) hq

/-- A step handles the next event on the state from which it is taken. -/
theorem step_eq (s : State) : step s = handle s.nextEvent s.popInput := rfl

/-- The two fields the taking of an event does not touch are all but `inputs`. -/
theorem State.popInput_eq (s : State) : s.popInput = { s with inputs := s.inputs.tail } := rfl

/-! ### The observation record -/

/-- Requests are read off a record piece by piece. -/
theorem requestsOf_append (l m : List TxEntry) : requestsOf (l ++ m) = requestsOf l ++ requestsOf m := by
  induction l with
  | nil => rfl
  | cons x l ih => cases x <;> simp [requestsOf, ih]

/-- A request can be issued after a record with nothing open. -/
theorem logPaired_append_issued {log : List TxEntry} (q : Request) :
    logPaired log = true → openRequest log = none → logPaired (log ++ [.issued q]) = true := by
  fun_induction logPaired log with
  | case1 => intros; rfl
  | case2 q' => intro _ h; simp [openRequest] at h
  | case3 q' o rest ih =>
    intro h1 h2
    simp only [Bool.and_eq_true] at h1
    have h3 : openRequest rest = none := by
      cases rest with
      | nil => rfl
      | cons x xs => simpa [openRequest] using h2
    simp [logPaired, h1.1, ih h1.2 h3]
  | case4 => intro h; simp at h

/-- The open request of a record can be answered, by an outcome that answers it. -/
theorem logPaired_append_outcome {log : List TxEntry} {q : Request} {o : TxnOutcome} (ho : o.answers q = true) :
    logPaired log = true → openRequest log = some q → logPaired (log ++ [.outcome o]) = true := by
  fun_induction logPaired log with
  | case1 => intro _ h; simp [openRequest] at h
  | case2 q' =>
    intro _ h
    simp only [openRequest, List.getLast?_singleton, Option.some.injEq] at h
    subst h
    simp [logPaired, ho]
  | case3 q' o' rest ih =>
    intro h1 h2
    simp only [Bool.and_eq_true] at h1
    have h3 : openRequest rest = some q := by
      cases rest with
      | nil => simp [openRequest] at h2
      | cons x xs => simpa [openRequest] using h2
    simp [logPaired, h1.1, ih h1.2 h3]
  | case4 => intro h; simp at h

@[simp] theorem openRequest_append_issued (log : List TxEntry) (q : Request) :
    openRequest (log ++ [.issued q]) = some q := by
  simp [openRequest]

@[simp] theorem openRequest_append_outcome (log : List TxEntry) (o : TxnOutcome) :
    openRequest (log ++ [.outcome o]) = none := by
  simp [openRequest]

/-- What a response delivers can answer the request it is read for (D30). -/
theorem Response.outcome_answers (r : Response) (q : Request) : (r.outcome q.rlen).answers q = true := by
  unfold Response.outcome
  split <;> simp [TxnOutcome.answers]

/-! ### The datapath -/

/-- `toSigned` is the two's-complement reading of the bits, at every width the block uses it (R89). -/
theorem toSigned_eq_toInt {w : Nat} (u : BitVec w) : toSigned u = u.toInt := by
  unfold toSigned
  rw [BitVec.toInt_eq_msb_cond, BitVec.msb_eq_getLsbD_last]
  split <;> push_cast <;> rfl

end Sys2Proof.Machine
end

