-- ==== Sys2Proof/Laws/PerInstr.lean ====
section
/-! SUPPORT. What holds of each command as syntax, one lemma per constructor. -/

namespace Sys2Proof.Laws

/-- The `mask` of a command's row in `spec/opcode_table.json`. -/
def tableMask : Instr → Word
  | .measure => 0xFFFFFFFF#32
  | .setreg _ _ => 0xFF0000FF#32

/-- The `match` of a command's row in `spec/opcode_table.json`. -/
def tableMatch : Instr → Word
  | .measure => 0x00000001#32
  | .setreg _ _ => 0x00000002#32

/-- The command's word has the fixed bits of its row. -/
def EncodingMatchesTable.Statement (i : Instr) : Prop := encode i &&& tableMask i = tableMatch i

theorem EncodingMatchesTable.measure : EncodingMatchesTable.Statement .measure := by
  unfold EncodingMatchesTable.Statement
  decide

theorem EncodingMatchesTable.setreg (addr value : Byte) : EncodingMatchesTable.Statement (.setreg addr value) := by
  unfold EncodingMatchesTable.Statement encode tableMask tableMatch
  have h : (0xFF0000FF#32).toNat = 0xFF0000FF := rfl
  ext i hi
  simp only [BitVec.getElem_and, BitVec.getElem_or, BitVec.getElem_shiftLeft]
  interval_cases i <;> simp

end Sys2Proof.Laws
end

