-- ==== Sys2Proof/Laws/Run.lean ====
section
/-! SUPPORT. Runs of several steps: their composition, and the induction over a run, packaged once. -/

namespace Sys2Proof.Machine

/-- No step. -/
theorem RunsTo.refl (s : State) : RunsTo 0 s s := rfl

/-- A step before a run. -/
theorem RunsTo.head {n : Nat} {s t u : State} (h : step s = .next t) (r : RunsTo n t u) : RunsTo (n + 1) s u := by
  unfold RunsTo at *
  simp only [Host.Core.run]
  rw [show Sys2Proof.core.step s = .next t from h]
  exact r

/-- One step. -/
theorem RunsTo.single {s t : State} (h : step s = .next t) : RunsTo 1 s t := .head h (.refl t)

/-- What the first step of a run does. -/
theorem RunsTo.inv {n : Nat} {s u : State} (r : RunsTo (n + 1) s u) : ∃ t, step s = .next t ∧ RunsTo n t u := by
  unfold RunsTo at r
  simp only [Host.Core.run] at r
  split at r
  · rename_i t h; exact ⟨t, h, r⟩
  · cases r
  · cases r

/-- Runs compose. -/
theorem RunsTo.trans {m n : Nat} {s t u : State} (a : RunsTo m s t) (b : RunsTo n t u) : RunsTo (m + n) s u := by
  induction m generalizing s with
  | zero => cases a; simpa using b
  | succ m ih =>
    obtain ⟨v, hv, r⟩ := a.inv
    rw [Nat.add_right_comm]
    exact .head hv (ih r)

/-- What every step keeps, every run keeps. -/
theorem RunsTo.keeps {P : State → Prop} (hstep : ∀ s t, P s → step s = .next t → P t) {n : Nat} {s t : State}
    (r : RunsTo n s t) (hs : P s) : P t := by
  induction n generalizing s with
  | zero => cases r; exact hs
  | succ n ih =>
    obtain ⟨u, hu, r⟩ := r.inv
    exact ih r (hstep s u hs hu)

/-- A step with an event placed first handles it on the state without it. -/
theorem step_of_inputs {s : State} {e : Event} {rest : List Event} (h : s.inputs = e :: rest) :
    step s = handle e { s with inputs := rest } := by
  simp only [step_eq, State.nextEvent, State.popInput, h, List.tail_cons]

/-- A step with no event placed is a tick. -/
theorem step_of_no_inputs {s : State} (h : s.inputs = []) : step s = handle (.seq .tick) s := by
  have : s.popInput = s := by cases s; simp_all [State.popInput]
  rw [step_eq, State.nextEvent, h, this]

/-- A legal write of a word to `CMD` is the write of that command, answered on the host bus. -/
theorem hostAccess_command (w : Word) (s : State) :
    hostAccess (.write 0x00 w 0b1111) s = commandWrite w (s.answer (.write 0x00 w 0b1111)) := by
  have hl : (HostAccess.write 0x00 w 0b1111).legal = true := by
    simp [HostAccess.legal, HostAccess.off, HostAccess.be]
  unfold hostAccess
  exact if_pos (And.intro hl rfl)

/-- A step whose next event is one of the sequencer's side. -/
theorem step_of_seq {s : State} {q : SeqEvent} {rest : List Event} (hl : s.codesLegal = true)
    (h : s.inputs = .seq q :: rest) : step s = seqEvent q { s with inputs := rest } := by
  rw [step_of_inputs h]
  exact if_pos hl

/-- A step whose next event is a command write. -/
theorem step_of_command {s : State} {w : Word} {rest : List Event} (hl : s.codesLegal = true)
    (h : s.inputs = commandEvent w :: rest) :
    step s = commandWrite w { s with inputs := rest, hostAnswer := some (.written false) } := by
  rw [step_of_inputs h]
  refine (if_pos hl).trans ((hostAccess_command w _).trans ?_)
  simp [State.answer, State.answerTo, HostAccess.legal, HostAccess.off, HostAccess.be]

end Sys2Proof.Machine
end

