-- ==== Sys2Proof/Tests/Slice0.lean ====
section
/-! SUPPORT. Tests on fixed values. The expected values are the spec's: the words of `spec/30_encoding.md` written out
field by field, the tables of `spec/95_test_vectors.md`, and the rule named at each test. The theorems named
`witness_<statement>` show a concrete state and operands that meet the hypotheses of that statement together. -/

namespace Sys2Proof.Tests

open Sys2Proof Sys2Proof.Machine

/-! ### Helpers -/

/-- The state an outcome gives, if it gives one. -/
def nextOf (o : Host.Outcome State Fault Refusal) : Option State :=
  match o with
  | .next t => some t
  | .fault _ => none
  | .refused _ => none

/-- The fault an outcome gives, if it gives one. -/
def faultOf (o : Host.Outcome State Fault Refusal) : Option Fault :=
  match o with
  | .next _ => none
  | .fault f => some f
  | .refused _ => none

/-- A test instance: 1000 ticks a second, a wait of 2 ticks. -/
def testConfig : Config := { devAddr := 0x60, fclkHz := 1000, convWaitCycles := 2 }

/-- Idle, right after reset, in the test instance. -/
def idleState : State := { State.reset with cfg := testConfig }

/-- The coefficient bytes of V1. -/
def coefAnswer : Response :=
  (TxnOutcome.ok [0x3E, 0xE8, 0x01, 0x3C, 0x00, 0x00, 0x7D, 0x98]).response

/-- The ADC bytes of V1: `PADC` = 432, `TADC` = 489. -/
def adcAnswer : Response := (TxnOutcome.ok [0x6C, 0x00, 0x7A, 0x40]).response

/-- A write that is acknowledged. -/
def writeAnswer : Response := (TxnOutcome.ok []).response

/-- A transaction that failed. -/
def failAnswer : Response := TxnOutcome.fail.response

/-- Idle, with an error recorded. -/
def errorState : State := { idleState with done := true, err := true, errcode := 4, errstage := 1 }

/-- A coefficient read outstanding and presented. -/
def coefState : State := State.issue (txnWriteRead 0x60 0x04 8) { idleState with st := .coef }

/-- A conversion-trigger write outstanding. -/
def convState : State := State.issue (txnWrite 0x60 0x12 0x00) { idleState with st := .conv }

/-- The wait, two ticks still to count. -/
def delayState : State := { idleState with st := .delay, wcnt := 2 }

/-- An ADC read outstanding. -/
def adcState : State := State.issue (txnWriteRead 0x60 0x00 4) { idleState with st := .adc }

/-- About to compute, with the capture registers of V1. -/
def compState : State :=
  { idleState with
    st := .comp
    a0Raw := 0x3EE8, b1Raw := 0x013C, b2Raw := 0x0000, c12Raw := 0x1F66, padc := 432, tadc := 489 }

/-- A `SETREG 0x01, 0xAB` whose write is outstanding. -/
def setwrState : State :=
  State.issue (txnWrite 0x60 0x01 0xAB) { idleState with st := .setwr, lAddr := 0x01, lData := 0xAB }

/-! ### Well-formedness: each check refuses an ill-formed term -/

theorem test_wellFormed_refuses_address_256 : (AsmCommand.setreg 256 0).wellFormed = false := by decide
theorem test_wellFormed_refuses_value_256 : (AsmCommand.setreg 0 256).wellFormed = false := by decide
theorem test_wellFormed_accepts_255 : (AsmCommand.setreg 255 255).wellFormed = true := by decide
theorem test_wellFormed_refuses_clock_zero : (Config.mk 0x60 0 1).wellFormed = false := by decide
/-- A 1 MHz clock needs 40000 ticks (R6): one less is refused, 40000 accepted. -/
theorem test_production_bound :
    (Config.mk 0x60 1000000 39999).production = false ∧ (Config.mk 0x60 1000000 40000).production = true := by decide

/-! ### Decoding: the words from the fields of R61 to R64, `RSVD`, `DATA`, `ADDR`, `OPC` from the top -/

theorem test_decode_measure : decode (0b00000000#8 ++ 0b00000000#8 ++ 0b00000000#8 ++ 0b00000001#8) = .command .measure := by
  decide
theorem test_decode_setreg :
    decode (0b00000000#8 ++ 0b10101011#8 ++ 0b00000001#8 ++ 0b00000010#8) = .command (.setreg 0x01 0xAB) := by decide
theorem test_decode_illegal_opcode : decode 0x00000003#32 = .illegal .unknownOpcode := by decide
theorem test_decode_illegal_measure : decode 0x80000001#32 = .illegal .measureReservedBits := by decide
theorem test_decode_illegal_setreg : decode 0x01000002#32 = .illegal .setregReservedBits := by decide
theorem test_encode_setreg : encode (.setreg 0x02 0xFF) = 0x00FF0202#32 := by decide
theorem test_decodeTableWord :
    decodeTableWord 32 0x00000001 = some .measure ∧ decodeTableWord 32 0x00000002 = some (.setreg 0 0) ∧
      decodeTableWord 32 0 = none := by decide

/-! ### The assembler (R70), on lines of text -/

theorem test_assemble_measure :
    (assembleLine ['M', 'E', 'A', 'S', 'U', 'R', 'E']).toOption = some 0x00000001#32 := by decide
theorem test_assemble_setreg_hex :
    (assembleLine ['S', 'E', 'T', 'R', 'E', 'G', ' ', '0', 'x', '0', '1', ',', ' ', '0', 'x', 'A', 'B']).toOption =
      some 0x00AB0102#32 := by decide
theorem test_assemble_refuses_256 :
    (assembleLine ['S', 'E', 'T', 'R', 'E', 'G', ' ', '2', '5', '6', ',', ' ', '0']).toOption = none := by decide
theorem test_assemble_refuses_empty_hex :
    (assembleLine ['S', 'E', 'T', 'R', 'E', 'G', ' ', '0', 'x', ',', ' ', '0']).toOption = none := by decide

/-! ### `MEASURE` -/

/-- R95: the request on the port after the acceptance. -/
theorem test_measure_issues :
    (nextOf (exec .measure { idleState with valid := true })).map (fun t => (t.st, t.presented, t.valid)) =
      some (.coef, some { kind := .writeRead, dev := 0x60, wbytes := [0x04], rlen := 8 }, false) := by decide

/-- The `COMP` tick on the capture registers of V1. -/
theorem test_measure_completes :
    (nextOf (seqEvent .tick compState)).map (fun t => (t.press, t.temp, t.statusWord)) =
      some (0x00004FF4#32, 0x0000010B#32, 0x0000000A#32) := by decide

/-! ### `SETREG` -/

theorem test_setreg_issues :
    (nextOf (exec (.setreg 0x02 0xFF) idleState)).map (fun t => (t.st, t.presented, t.lAddr, t.lData)) =
      some (.setwr, some { kind := .write, dev := 0x60, wbytes := [0x02, 0xFF], rlen := 0 }, 0x02, 0xFF) := by decide

/-- The first address the guard rejects; `STATUS` per R35: code 3, stage 1, `ERR`, `DONE`. -/
theorem test_setreg_guard :
    (nextOf (exec (.setreg 0x03 0x00) idleState)).map (fun t => (t.statusWord, t.req)) =
      some (0x00001306#32, none) := by decide

/-! ### The other events, and the datapath's table -/

/-- The tie rows of L2 D, and its maximum and minimum. -/
theorem test_pressure_rows :
    [536346624, 1609039872, -536346624, 2681733120, 51495316223, -51497672704].map p100Of =
      [5812, 7438, 4188, 9062, 83009, -73013] := by decide

/-- Rows of the temperature table. -/
theorem test_temperature_rows :
    [0, 1, 489, 498, 499, 600, 1023].map t10Of = [1181, 1179, 267, 250, 248, 59, -731] := by decide

/-- R96 on the bytes of V1. -/
theorem test_coefficient_response :
    (nextOf (seqEvent (.response coefAnswer) coefState)).map (fun t => (t.coef0Word, t.coef1Word, t.st)) =
      some (0x013C3EE8#32, 0x1F660000#32, .conv) := by decide

/-- R99 on the bytes of V1. -/
theorem test_adc_response :
    (nextOf (seqEvent (.response adcAnswer) adcState)).map (fun t => (t.adcRawWord, t.st)) =
      some (0x01E901B0#32, .comp) := by decide

/-- `HostWrite(0x00, 0x00000001, 0b0011)` of L2 B: `herr = 1`, no command. -/
theorem test_illegal_access :
    (nextOf (hostAccess (.write 0x00 0x00000001 0b0011) idleState)).map (fun t => (t.st, t.hostAnswer)) =
      some (.idle, some (.written true)) := by decide

/-- `HR 0x10` of L2 B, as one step. -/
theorem test_step_reads_cfg :
    (nextOf (step { idleState with inputs := [.host (.read 0x10 0b1111)] })).map (fun t => (t.hostAnswer, t.inputs)) =
      some (some (.data 0x00000060#32 false), []) := by decide

/-- The words of both commands, placed where the reset machine takes its next command, run. -/
theorem test_reset_runs_a_placed_word :
    (nextOf (step (State.reset.withFetchWord 32 0x00000001))).map State.st = some .coef ∧
      (nextOf (step (State.reset.withFetchWord 32 0x00AB0102))).map State.lData = some 0xAB := ⟨rfl, rfl⟩

/-- I8: a reserved code stops the machine. -/
theorem test_reserved_code_faults :
    faultOf (step { idleState with st := .unused }) = some .reservedCode ∧
      faultOf (step { idleState with errcode := 5 }) = some .reservedCode := by decide

/-! ### Witnesses: the hypotheses of each statement can be met -/

/-- The clause on an event that carries no access, and the clause on one that does. -/
theorem witness_HostAnswerNeverInfluencesTheBlock :
    (∃ t, handle (.seq .tick) delayState = .next t) ∧
      (∃ t, handle (.host (.read 0x04 0b1111)) coefState = .next t) ∧
      (Event.host (.read 0x04 0b1111)).hostPart ≠ none := ⟨⟨_, rfl⟩, ⟨_, rfl⟩, by decide⟩

theorem witness_DecodeAndEncodeAgree : ∃ w i, decode w = .command i := ⟨0x00FF0202#32, .setreg 0x02 0xFF, by decide⟩

theorem witness_SetregIsOpcodeTwoWithReservedZero :
    idleState.st = .idle ∧ (0x02 : Byte) < 0x03 ∧ (0x02 : Byte) < 0xFF := by decide

theorem witness_IllegalWordsAreTheThreeCases :
    idleState.st = .idle ∧ decode 0x00000000#32 = .illegal .unknownOpcode ∧
      decode 0x00000101#32 = .illegal .measureReservedBits ∧ decode 0x01000502#32 = .illegal .setregReservedBits := by
  decide

theorem witness_AssemblerTruncatesNothing :
    ((255 : Nat) ≤ 255 ∧ (255 : Nat) ≤ 255) ∧ (255 < 256 ∨ 255 < 0) ∧ (255 < 0 ∨ 255 < 256) := by decide

/-- One state for each of the three clauses. -/
theorem witness_StepRunsTheDecodedCommand :
    (idleState.codesLegal = true ∧ decode 0x00AB0102#32 = .command (.setreg 0x01 0xAB) ∧
      (idleState.place (.host (.write 0x00 0x00AB0102#32 0b1111))).inputs =
        [.host (.write 0x00 0x00AB0102#32 0b1111)] ∧
      (idleState.place (.host (.write 0x00 0x00AB0102#32 0b1111))).codesLegal = true) ∧
    (decode 0x12345678#32 = .illegal .unknownOpcode ∧
      (coefState.place (.host (.write 0x00 0x12345678#32 0b1111))).inputs =
        [.host (.write 0x00 0x12345678#32 0b1111)] ∧
      (coefState.place (.host (.write 0x00 0x12345678#32 0b1111))).codesLegal = true) := by decide

theorem witness_MeasureIssuesTheCoefficientRead : idleState.st = .idle ∧ errorState.st = .idle := by decide

/-- Every writable address. -/
theorem witness_SetregIssuesItsWrite : idleState.st = .idle ∧
    ∀ addr ∈ [(0x00 : Byte), 0x01, 0x02], addr = 0x00 ∨ addr = 0x01 ∨ addr = 0x02 := by decide

/-- The first address the guard rejects, and the last. -/
theorem witness_SetregGuardRejectsTheRest :
    idleState.st = .idle ∧ 3 ≤ (0x03 : Byte).toNat ∧ 3 ≤ (0xFF : Byte).toNat := by decide

theorem witness_BusyWriteSetsOverrunOnly :
    coefState.st ≠ .idle ∧ convState.st ≠ .idle ∧ delayState.st ≠ .idle ∧ adcState.st ≠ .idle ∧
      compState.st ≠ .idle ∧ setwrState.st ≠ .idle := by decide

theorem witness_IllegalCommandRecordsItself :
    idleState.st = .idle ∧ decode 0x00000003#32 = .illegal .unknownOpcode := by decide

/-- Both outcomes. -/
theorem witness_CoefficientResponseCapturesAndTriggers :
    coefState.st = .coef ∧ coefState.req = some (txnWriteRead 0x60 0x04 8) ∧
      coefAnswer.ok = true ∧ failAnswer.ok = false := by decide

theorem witness_TriggerResponseStartsTheWait :
    convState.st = .conv ∧ convState.req = some (txnWrite 0x60 0x12 0x00) ∧
      writeAnswer.ok = true ∧ failAnswer.ok = false := by decide

/-- No tick, the last tick that counts, and the production bound at 1 MHz. -/
theorem witness_WaitLastsItsTicks :
    delayState.st = .delay ∧ 0 ≤ delayState.wcnt ∧ 2 ≤ delayState.wcnt ∧
      (Config.mk 0x60 1000000 40000).production = true := by decide

theorem witness_AdcResponseCapturesTheCounts :
    adcState.st = .adc ∧ adcState.req = some (txnWriteRead 0x60 0x00 4) ∧
      adcAnswer.ok = true ∧ failAnswer.ok = false := by decide

theorem witness_CompTickWritesTheResults : compState.st = .comp := by decide

theorem witness_SetregResponseEndsTheCommand :
    setwrState.st = .setwr ∧ setwrState.req = some (txnWrite 0x60 0x01 0xAB) ∧
      writeAnswer.ok = true ∧ failAnswer.ok = false := by decide

theorem witness_StrayResponseIsIgnored : idleState.req = none ∧ delayState.req = none := by decide

/-- Each of the four states a transaction can fail in. -/
theorem witness_FailedTransactionAborts :
    failAnswer.ok = false ∧ ∀ s ∈ [coefState, convState, adcState, setwrState],
      s.st.isTransaction = true ∧ s.req.isSome = true := by decide

/-- A tick, the transport's taking of the request, and a host access, none of which answers it; and no input. -/
theorem witness_OnlyAnAnswerOrResetEndsTheWait :
    coefState.st.isTransaction = true ∧ coefState.codesLegal = true ∧ coefState.inputs = [] ∧
    ∀ e ∈ [Event.seq .tick, .seq .ready, .host (.read 0x04 0b1111)],
      (nextOf (handle e coefState)).isSome = true ∧ e.isReset = false ∧
        ∀ r, e.seqPart ≠ some (.response r) := by
  refine ⟨by decide, by decide, by decide, ?_⟩
  intro e he
  simp only [List.mem_cons, List.not_mem_nil, or_false] at he
  rcases he with rfl | rfl | rfl <;> exact ⟨by decide, by decide, by simp [Event.seqPart]⟩

/-- A completion at the edge of an access, a write outside `CMD`, an illegal write at 0x00, and an idle state. -/
theorem witness_CoincidentEventsSeeThePreEdgeState :
    compState.codesLegal = true ∧ compState.st ≠ .idle ∧ (∃ t, seqEvent .tick compState = .next t) ∧
      ((0x01 : Byte) ≠ 0x00 ∨ (0b1111 : BitVec 4) ≠ 0b1111) ∧ ((0x00 : Byte) ≠ 0x00 ∨ (0b0111 : BitVec 4) ≠ 0b1111) ∧
      errorState.codesLegal = true ∧ errorState.st = .idle :=
  ⟨by decide, by decide, ⟨_, rfl⟩, by decide, by decide, by decide, by decide⟩

theorem witness_SignedDecodeIsTwosComplement : (16 ≤ 32 ∧ 14 ≤ 32) ∧ (16 ≤ 16 ∧ 14 ≤ 14) := by decide

theorem witness_RoundingIsToNearestTiesToEven :
    (0 : Int) < 1 ∧ (0 : Int) < 1023 * 2 ^ 22 ∧
      2 * |6500 * 536346624 - 1023 * 2 ^ 22 * rne (6500 * 536346624) (1023 * 2 ^ 22)| = (1023 * 2 ^ 22 : Int) := by
  decide

/-- A tie: 1023 eighths of `pComp`. -/
theorem witness_PressureIsTheExactFormulaRounded :
    ∃ x : RawInputs, |exactP100 x - (x.pressWord.toInt : ℚ)| = 1 / 2 := by
  refine ⟨{ a0Raw := 0x03FF, b1Raw := 0, b2Raw := 0, c12Raw := 0, padc := 0, tadc := 0 }, ?_⟩
  rw [show (RawInputs.pressWord { a0Raw := 0x03FF, b1Raw := 0, b2Raw := 0, c12Raw := 0, padc := 0, tadc := 0 }).toInt =
    5812 by decide]
  have h : BitVec.toInt (1023 : BitVec 16) = 1023 := by decide
  norm_num [exactP100, h]

theorem witness_TemperatureIsTheExactFormulaRounded : (0 : BitVec 10) ≤ 1023 ∧ (498 : BitVec 10) ≤ 498 := by decide

/-- A state of every kind meets the invariant. -/
theorem inv_witnesses : ∀ s ∈ [idleState, errorState, coefState, convState, delayState, adcState, compState, setwrState],
    s.Inv := by
  intro s hs
  simp only [List.mem_cons, List.not_mem_nil, or_false] at hs
  rcases hs with rfl | rfl | rfl | rfl | rfl | rfl | rfl | rfl <;> constructor <;>
    first
    | decide
    | (unfold State.errorRecordSound; decide)
    | (unfold State.resultsInRange; decide)

theorem witness_StepKeepsTheInvariant : delayState.Inv ∧ ∃ t, step delayState = .next t :=
  ⟨inv_witnesses _ (by simp), ⟨_, rfl⟩⟩

theorem witness_InvariantStatesNeverStop : setwrState.Inv := inv_witnesses _ (by simp)

/-- The lowest reserved value of each code. -/
theorem witness_ReservedCodesStopUntilReset :
    ({ idleState with st := .unused }).st = .unused ∧ (4 : BitVec 4) < ({ idleState with errcode := 5 }).errcode ∧
      (5 : BitVec 4) < ({ idleState with errstage := 6 }).errstage ∧ (Event.seq .tick).isReset = false := by decide

/-- A command, an answer and a tick that move the sequencer. -/
theorem witness_SequencerMovesOnlyAsListed :
    (nextOf (handle (commandEvent 0x00000001#32) idleState)).map State.st = some .coef ∧
      (nextOf (handle (.seq (.response failAnswer)) adcState)).map State.st = some .idle ∧
      (nextOf (handle (.seq .tick) compState)).map State.st = some .idle ∧
      (nextOf (handle (.rst none) convState)).map State.st = some .idle := by decide

theorem witness_ResultsChangeOnlyAtCompletion :
    (nextOf (handle (.seq .tick) compState)).map (fun t => (t.press, t.valid)) = some (0x00004FF4#32, true) ∧
      compState.press ≠ 0x00004FF4#32 ∧ compState.valid = false := by decide

theorem witness_ErrorRecordStandsUntilAcceptance :
    errorState.Inv ∧ errorState.err = true ∧ (∃ t, handle (.host (.read 0x04 0b1111)) errorState = .next t) ∧
      (Event.host (.read 0x04 0b1111)).isReset = false ∧
      ∀ w, ¬ (Event.host (.read 0x04 0b1111)).writesCommand w :=
  ⟨inv_witnesses _ (by simp), by decide, ⟨_, rfl⟩, by decide, by simp [Event.writesCommand, Event.hostPart]⟩

/-- An event of each of the four kinds. -/
theorem witness_TransactionLogOnlyGrows :
    (nextOf (handle (.seq .tick) delayState)).map (fun t => t.txlog.length) = some 0 ∧
      (nextOf (handle (commandEvent 0x00000001#32) idleState)).map (fun t => t.txlog.length) = some 1 ∧
      (nextOf (handle (.seq (.response failAnswer)) coefState)).map (fun t => t.txlog.length) = some 2 ∧
      (nextOf (handle (.seq (.response coefAnswer)) coefState)).map (fun t => t.txlog.length) = some 3 ∧
      ∀ e ∈ [Event.seq .tick, commandEvent 0x00000001#32, .seq (.response coefAnswer)], e.isReset = false := by decide

theorem witness_RequestsGoOnlyToAllowedRegisters :
    (∀ q ∈ requestsOf setwrState.txlog, requestAllowed setwrState.cfg.devAddr q) ∧
      ∃ t, step (setwrState.place (.seq (.response writeAnswer))) = .next t := by
  refine ⟨?_, ⟨_, rfl⟩⟩
  intro q hq
  rw [show requestsOf setwrState.txlog = [txnWrite 0x60 0x01 0xAB] from rfl, List.mem_singleton] at hq
  exact .inr (.inr (.inr ⟨0x01, 0xAB, by decide, hq⟩))

/-- The inputs of Program 1 of `spec/95_test_vectors.md`. -/
def programOne : State :=
  { idleState with
    inputs := [commandEvent 0x00000001#32, .seq (.response coefAnswer), .seq (.response writeAnswer), .seq .tick,
      .seq .tick, .seq .tick, .seq (.response adcAnswer), .seq .tick] }

theorem witness_MeasureRunsToItsResults :
    programOne.st = .idle ∧ programOne.codesLegal = true ∧ coefAnswer.ok = true ∧ writeAnswer.ok = true ∧
      adcAnswer.ok = true ∧
      programOne.inputs =
        [commandEvent 0x00000001#32, .seq (.response coefAnswer), .seq (.response writeAnswer)] ++
          List.replicate (programOne.cfg.convWaitCycles + 1) (.seq .tick) ++
          [.seq (.response adcAnswer), .seq .tick] ++ [] := by decide

/-- The three clauses. -/
theorem witness_FailedMeasureKeepsTheOldResults :
    (coefAnswer.ok = true ∧ writeAnswer.ok = true ∧ failAnswer.ok = false ∧ errorState.st = .idle ∧
      errorState.codesLegal = true) ∧
    ({ errorState with inputs := [commandEvent 0x00000001#32, .seq (.response coefAnswer),
        .seq (.response writeAnswer), .seq .tick, .seq .tick, .seq .tick, .seq (.response failAnswer)] }).inputs =
      [commandEvent 0x00000001#32, .seq (.response coefAnswer), .seq (.response writeAnswer)] ++
        List.replicate (errorState.cfg.convWaitCycles + 1) (.seq .tick) ++ [.seq (.response failAnswer)] ++ [] ∧
    ({ errorState with inputs := [commandEvent 0x00000001#32, .seq (.response coefAnswer),
        .seq (.response failAnswer)] }).inputs =
      [commandEvent 0x00000001#32, .seq (.response coefAnswer), .seq (.response failAnswer)] ++ [] ∧
    ({ errorState with inputs := [commandEvent 0x00000001#32, .seq (.response failAnswer)] }).inputs =
      [commandEvent 0x00000001#32, .seq (.response failAnswer)] ++ [] := by decide

/-- An address the guard lets through and one it rejects. -/
theorem witness_SetregRunsToItsEnd :
    idleState.st = .idle ∧ idleState.codesLegal = true ∧
      ({ idleState with
        inputs := [commandEvent 0x00AB0202#32, .seq (.response writeAnswer)] }).inputs =
        [commandEvent (encode (.setreg 0x02 0xAB)), .seq (.response writeAnswer)] ++ [] ∧
      ({ idleState with
        inputs := [commandEvent 0x00AB0302#32, .seq (.response failAnswer)] }).inputs =
        [commandEvent (encode (.setreg 0x03 0xAB)), .seq (.response failAnswer)] ++ [] := by decide

theorem witness_ScriptCommandIsAHostWrite : assemble (.setreg 1 171) = .ok 0x00AB0102#32 := rfl

end Sys2Proof.Tests
end

section
/-! Proofs of the family `00_scope`: rounding (R8, R104), and the step that takes a command word (R10, R84). -/

namespace Sys2Proof.Machine

/-! ### Rounding -/

/-- Past the half the quotient is rounded up. -/
theorem rne_of_past_half {num den : Int} (h : den < 2 * (num % den)) : rne num den = num / den + 1 := if_pos h

/-- Before the half the quotient is rounded down. -/
theorem rne_of_before_half {num den : Int} (h : 2 * (num % den) < den) : rne num den = num / den :=
  (if_neg (by omega)).trans (if_pos h)

/-- At a tie the even one of the two neighbours is taken. -/
theorem rne_of_tie {num den : Int} (h : 2 * (num % den) = den) : rne num den = num / den + num / den % 2 :=
  (if_neg (by omega)).trans (if_neg (by omega))

/-- The distance of the dividend from the multiple `k` places above its quotient. -/
theorem sub_mul_ediv_add (num den k : Int) : num - den * (num / den + k) = num % den - den * k := by
  rw [mul_add, ← sub_sub, ← Int.emod_def]

/-- Away from a tie the distance to the rounded quotient is strictly under one half. -/
theorem two_mul_abs_sub_mul_rne_lt {num den : Int} (hden : 0 < den) (htie : 2 * (num % den) ≠ den) :
    2 * |num - den * rne num den| < den := by
  have hnonneg : 0 ≤ num % den := Int.emod_nonneg num hden.ne'
  have hlt : num % den < den := Int.emod_lt_of_pos num hden
  rcases htie.lt_or_gt with hlo | hhi
  · rw [rne_of_before_half hlo, ← Int.emod_def, abs_of_nonneg hnonneg]
    exact hlo
  · rw [rne_of_past_half hhi, sub_mul_ediv_add, abs_of_neg (by omega)]
    omega

/-- At a tie the distance is exactly one half, whichever neighbour is taken. -/
theorem two_mul_abs_sub_mul_rne_of_tie {num den : Int} (hden : 0 < den) (htie : 2 * (num % den) = den) :
    2 * |num - den * rne num den| = den := by
  rw [rne_of_tie htie, sub_mul_ediv_add]
  rcases Int.emod_two_eq_zero_or_one (num / den) with hq | hq <;> rw [hq]
  · rw [abs_of_nonneg (by omega)]; omega
  · rw [abs_of_neg (by omega)]; omega

/-- Settles O33, by whether the quotient is a tie. -/
theorem roundingIsToNearestTiesToEven : Obligations.RoundingIsToNearestTiesToEven := by
  intro num den hden
  by_cases htie : 2 * (num % den) = den
  · refine ⟨(two_mul_abs_sub_mul_rne_of_tie hden htie).le, fun _ => ?_⟩
    rw [rne_of_tie htie]
    omega
  · have hlt := two_mul_abs_sub_mul_rne_lt hden htie
    exact ⟨hlt.le, fun heq => absurd heq hlt.ne⟩

/-! ### The command word of a step -/

/-- `exec` runs each command through `accept`, so while `BUSY` it only sets `OVERRUN` (R83). -/
theorem exec_of_busy (i : Instr) {s : State} (h : s.st ≠ .idle) : exec i s = .next s.setOverrun := by
  cases i with
  | measure => exact congrArg _ (accept_of_busy h)
  | setreg addr value => exact congrArg _ (accept_of_busy h)

/-- The write of a word that decodes to a command is that command, `BUSY` included. -/
theorem commandWrite_of_command {w : Word} {i : Instr} (hw : decode w = .command i) (s : State) :
    commandWrite w s = exec i s := by
  by_cases hs : s.st = .idle
  · simp [commandWrite, State.busy, hs, hw]
  · rw [exec_of_busy i hs, commandWrite, if_pos ((State.busy_iff s).2 hs)]

/-- The write of an illegal word is the illegal command, `BUSY` included. -/
theorem commandWrite_of_illegal {w : Word} {why : IllegalWord} (hw : decode w = .illegal why) (s : State) :
    commandWrite w s = execIllegal s := by
  by_cases hs : s.st = .idle
  · simp [commandWrite, State.busy, hs, hw]
  · rw [execIllegal, accept_of_busy hs, commandWrite, if_pos ((State.busy_iff s).2 hs)]

/-- The fixed bits of an encoded `SETREG`: its opcode, and `RSVD` = 0 (R64). -/
theorem encode_setreg_and_mask (addr value : Byte) : encode (.setreg addr value) &&& 0xFF0000FF#32 = 0x00000002#32 :=
  Laws.EncodingMatchesTable.setreg addr value

/-- No `SETREG` is encoded as the word of `MEASURE`. -/
theorem encode_setreg_ne_measure (addr value : Byte) : encode (.setreg addr value) ≠ 0x00000001#32 := by
  intro h
  have hfixed := encode_setreg_and_mask addr value
  rw [h] at hfixed
  exact absurd hfixed (by decide)

@[simp] theorem addrOf_encode_setreg (addr value : Byte) : addrOf (encode (.setreg addr value)) = addr := by
  ext i hi
  interval_cases i <;> simp [addrOf, encode]

@[simp] theorem dataOf_encode_setreg (addr value : Byte) : dataOf (encode (.setreg addr value)) = value := by
  ext i hi
  interval_cases i <;> simp [dataOf, encode]

/-- Every command is read back from its word (R69). -/
theorem decode_encode (i : Instr) : decode (encode i) = .command i := by
  cases i with
  | measure => rfl
  | setreg addr value =>
    rw [decode, if_neg (encode_setreg_ne_measure addr value), if_pos (encode_setreg_and_mask addr value),
      addrOf_encode_setreg, dataOf_encode_setreg]

/-- A whole word taken as a row of the opcode table is the word itself. -/
theorem tableWord_toNat (w : Word) : tableWord 32 w.toNat = w := by
  rw [tableWord, Nat.mod_eq_of_lt w.isLt, BitVec.ofNat_toNat, BitVec.setWidth_eq]

/-- Settles O15: a step whose next event is a command write is `commandWrite` on the answered state. -/
theorem stepRunsTheDecodedCommand : Obligations.StepRunsTheDecodedCommand := by
  refine ⟨fun s w i rest hl hw hin => ?_, fun s w why rest hl hw hin => ?_, fun s i hl => ?_⟩
  · rw [step_of_command hl hin, commandWrite_of_command hw]
  · rw [step_of_command hl hin, commandWrite_of_illegal hw]
  · have hin : (s.withFetchWord 32 (encode i).toNat).inputs = commandEvent (encode i) :: s.inputs := by
      rw [State.withFetchWord, tableWord_toNat, State.place]
    rw [step_of_command (s := s.withFetchWord 32 (encode i).toNat) hl hin,
      commandWrite_of_command (decode_encode i)]
    rfl

end Sys2Proof.Machine
end

section
/-! Proofs of the family `10_state`: the moves of an event (R10, R16), the transport's wait (R17, R77), the results
(R30, R31, R100 to R106), the observation record (R14, R55), the invariant, and the host map (R33 to R41). -/

namespace Sys2Proof.Machine

/-! ### What an event can do, move by move -/

/-- The row of R108 that a failed transaction leaves, by the state it was in. -/
def failureRow : SeqState → Option (BitVec 4 × BitVec 4)
  | .coef => some (errIoRead, stageCoefRead)
  | .conv => some (errIoWrite, stageConvWrite)
  | .adc => some (errIoRead, stageAdcRead)
  | .setwr => some (errIoWrite, stageSetregWrite)
  | .idle | .delay | .comp | .unused => none

/-- The moves of a command write (R83 to R86): what `commandWrite` makes of `s`, one constructor per branch. -/
inductive CommandMove (s : State) (w : Word) : State → Prop
  | busy (hst : s.st ≠ .idle) : CommandMove s w s.setOverrun
  | measure (hst : s.st = .idle) (hd : decode w = .command .measure) : CommandMove s w (measureAccept s.clearRecord)
  | setreg {addr value : Byte} (hst : s.st = .idle) (hd : decode w = .command (.setreg addr value))
      (haddr : addr ≤ 0x02) :
      CommandMove s w (State.issue (txnWrite s.cfg.devAddr addr value)
        { s.clearRecord.latch addr value with st := .setwr })
  | guarded {addr value : Byte} (hst : s.st = .idle) (hd : decode w = .command (.setreg addr value))
      (haddr : ¬ addr ≤ 0x02) :
      CommandMove s w ((s.clearRecord.latch addr value).abort errInvalidArgument stageDecode)
  | illegal {why : IllegalWord} (hst : s.st = .idle) (hd : decode w = .illegal why) :
      CommandMove s w (s.clearRecord.abort errIllegalCommand stageDecode)

theorem commandWrite_move {w : Word} {s t : State} (h : commandWrite w s = .next t) : CommandMove s w t := by
  rcases commandWrite_cases h with ⟨hst, rfl⟩ | ⟨hst, hd, rfl⟩ | ⟨addr, value, hst, hd, rfl⟩ | ⟨why, hst, hd, rfl⟩
  · exact .busy hst
  · exact .measure hst hd
  · unfold setregAccept
    split
    · next haddr => exact .setreg hst hd ((writable_iff addr).1 haddr)
    · next haddr => exact .guarded hst hd (mt (writable_iff addr).2 haddr)
  · exact .illegal hst hd

/-- The moves of the sequencer's side (R73, R76 to R78, R87, R96 to R100): what `seqEvent` makes of `s`, one
constructor per branch of a handler. The four failures are one move, told apart by `failureRow`. -/
inductive SeqMove (s : State) : SeqEvent → State → Prop
  | count (hst : s.st = .delay) (hw : s.wcnt ≠ 0) : SeqMove s .tick { s with wcnt := s.wcnt - 1 }
  | waitOver (hst : s.st = .delay) (hw : s.wcnt = 0) :
      SeqMove s .tick (State.issue (adcRequest s.cfg.devAddr) { s with st := .adc })
  | compute (hst : s.st = .comp) : SeqMove s .tick (compTick s)
  | noTick (hdelay : s.st ≠ .delay) (hcomp : s.st ≠ .comp) : SeqMove s .tick s
  | taken : SeqMove s .ready s.taken
  | stray {r : Response} (hq : s.req = none) : SeqMove s (.response r) s
  | coefOk {r : Response} {q : Request} (hst : s.st = .coef) (hq : s.req = some q) (hr : r.ok = true) :
      SeqMove s (.response r) (State.issue (convRequest s.cfg.devAddr)
        { (s.settle (r.outcome q.rlen)).captureCoef r with st := .conv })
  | convOk {r : Response} {q : Request} (hst : s.st = .conv) (hq : s.req = some q) (hr : r.ok = true) :
      SeqMove s (.response r) { s.settle (r.outcome q.rlen) with wcnt := s.cfg.convWaitCycles, st := .delay }
  | adcOk {r : Response} {q : Request} (hst : s.st = .adc) (hq : s.req = some q) (hr : r.ok = true) :
      SeqMove s (.response r) { (s.settle (r.outcome q.rlen)).captureAdc r with st := .comp }
  | setregOk {r : Response} {q : Request} (hst : s.st = .setwr) (hq : s.req = some q) (hr : r.ok = true) :
      SeqMove s (.response r) (s.settle (r.outcome q.rlen)).finish
  | failed {r : Response} {q : Request} {code stage : BitVec 4} (hrow : failureRow s.st = some (code, stage))
      (hq : s.req = some q) (hr : r.ok = false) :
      SeqMove s (.response r) ((s.settle (r.outcome q.rlen)).abort code stage)

theorem delayTick_move {s : State} (hst : s.st = .delay) : SeqMove s .tick (delayTick s) := by
  unfold delayTick
  split
  · next hw => exact .count hst hw
  · next hw => exact .waitOver hst (not_not.1 hw)

/-- A handler run on the settled state is its success or the failure of its row. -/
theorem response_move {s t : State} {r : Response} {q : Request} (hq : s.req = some q)
    (h : (s.st = .coef ∧ t = coefResponse r (s.settle (r.outcome q.rlen))) ∨
      (s.st = .conv ∧ t = convResponse r (s.settle (r.outcome q.rlen))) ∨
      (s.st = .adc ∧ t = adcResponse r (s.settle (r.outcome q.rlen))) ∨
      (s.st = .setwr ∧ t = setregResponse r (s.settle (r.outcome q.rlen)))) : SeqMove s (.response r) t := by
  cases hr : r.ok with
  | true =>
    rcases h with ⟨hst, rfl⟩ | ⟨hst, rfl⟩ | ⟨hst, rfl⟩ | ⟨hst, rfl⟩
    · rw [coefResponse, if_pos hr]; exact .coefOk hst hq hr
    · rw [convResponse, if_pos hr]; exact .convOk hst hq hr
    · rw [adcResponse, if_pos hr]; exact .adcOk hst hq hr
    · rw [setregResponse, if_pos hr]; exact .setregOk hst hq hr
  | false =>
    have hno : ¬ r.ok = true := by simp [hr]
    rcases h with ⟨hst, rfl⟩ | ⟨hst, rfl⟩ | ⟨hst, rfl⟩ | ⟨hst, rfl⟩
    · rw [coefResponse, if_neg hno]; exact .failed (by rw [hst]; rfl) hq hr
    · rw [convResponse, if_neg hno]; exact .failed (by rw [hst]; rfl) hq hr
    · rw [adcResponse, if_neg hno]; exact .failed (by rw [hst]; rfl) hq hr
    · rw [setregResponse, if_neg hno]; exact .failed (by rw [hst]; rfl) hq hr

theorem seqEvent_move {e : SeqEvent} {s t : State} (h : seqEvent e s = .next t) : SeqMove s e t := by
  rcases seqEvent_cases h with ⟨rfl, hst, rfl⟩ | ⟨rfl, hst, rfl⟩ | ⟨rfl, hdelay, hcomp, rfl⟩ | ⟨rfl, rfl⟩ |
    ⟨r, rfl, hq, rfl⟩ | ⟨r, q, rfl, hq, hresp⟩
  · exact delayTick_move hst
  · exact .compute hst
  · exact .noTick hdelay hcomp
  · exact .taken
  · exact .stray hq
  · exact response_move hq hresp

/-- The rows of failed transactions are rows of R108, each left in a transaction state. -/
theorem failureRow_eq_some {st : SeqState} {row : BitVec 4 × BitVec 4} (h : failureRow st = some row) :
    row ∈ errorPairs ∧ st.isTransaction = true := by
  cases st with
  | coef | conv | adc | setwr => cases h; exact ⟨by decide, rfl⟩
  | idle | delay | comp | unused => cases h

/-- Everything an event without a reset can do: the host side at most leaves its answer and `OVERRUN`; or it is a
command write while `IDLE`; or the sequencer's side moves `s`, beside what the host side leaves (D20). -/
theorem handle_cases_of_no_reset {e : Event} {s t : State} (h : handle e s = .next t) (hr : e.isReset = false) :
    (∃ x o, (s.st = .idle ∨ e.seqPart = none) ∧ t = { s with hostAnswer := x, overrun := o }) ∨
    (∃ w a, e.writesCommand w ∧ s.st = .idle ∧ CommandMove (s.answer a) w t) ∨
    (∃ q u x o, e.seqPart = some q ∧ SeqMove s q u ∧ t = { u with hostAnswer := x, overrun := o }) := by
  have hhost : ∀ {a : HostAccess}, e.hostPart = some a → (s.st = .idle ∨ e.seqPart = none) →
      hostAccess a s = .next t →
      (∃ x o, (s.st = .idle ∨ e.seqPart = none) ∧ t = { s with hostAnswer := x, overrun := o }) ∨
      (∃ w a, e.writesCommand w ∧ s.st = .idle ∧ CommandMove (s.answer a) w t) := by
    intro a hpart hside ha
    rcases hostAccess_cases ha with rfl | ⟨w, rfl, hw⟩
    · exact .inl ⟨_, s.overrun, hside, rfl⟩
    · by_cases hst : s.st = .idle
      · exact .inr ⟨w, _, hpart, hst, commandWrite_move hw⟩
      · rcases hostAccess_of_busy hst ha with rfl | rfl
        · exact .inl ⟨_, s.overrun, hside, rfl⟩
        · exact .inl ⟨_, true, hside, rfl⟩
  rcases handle_cases h with ⟨a, rfl, -⟩ | ⟨a, rfl, -, ha⟩ | ⟨q, rfl, -, hq⟩ | ⟨a, q, rfl, -, hst, ha⟩ |
    ⟨a, q, u, rfl, -, hst, ha, hq⟩
  · cases hr
  · exact (hhost rfl (.inr rfl) ha).imp_right .inl
  · exact .inr (.inr ⟨q, t, t.hostAnswer, t.overrun, rfl, seqEvent_move hq, rfl⟩)
  · exact (hhost rfl (.inl hst) ha).imp_right .inl
  · have hu : { u with hostAnswer := s.hostAnswer, overrun := s.overrun } = s := by
      rcases hostAccess_of_busy hst ha with rfl | rfl <;> rfl
    have halone := seqEvent_update_host s.hostAnswer s.overrun hq
    rw [hu] at halone
    exact .inr (.inr ⟨q, _, t.hostAnswer, t.overrun, rfl, seqEvent_move halone, rfl⟩)

/-- A reset puts the block in the state of R41, beside the answer on the host bus. -/
theorem handle_rst_cases {a : Option HostAccess} {s t : State} (h : handle (.rst a) s = .next t) :
    ∃ x, t = { s.rst with hostAnswer := x } := by
  cases h
  cases a with
  | none => exact ⟨none, rfl⟩
  | some a => exact ⟨_, rfl⟩

theorem Event.isReset_iff (e : Event) : e.isReset = true ↔ ∃ a, e = .rst a := by
  cases e <;> simp [Event.isReset]

/-! ### The wait for the transport -/

/-- With no response at hand, a state with a request outstanding moves only by the port taking that request. -/
theorem SeqMove.of_transaction {s t : State} {e : SeqEvent} (m : SeqMove s e t) (hst : s.st.isTransaction = true)
    (he : ∀ r, e ≠ .response r) : (e ≠ .ready ∧ t = s) ∨ (e = .ready ∧ t = s.taken) := by
  cases m with
  | count h _ | waitOver h _ | compute h => rw [h] at hst; cases hst
  | noTick => exact .inl ⟨SeqEvent.noConfusion, rfl⟩
  | taken => exact .inr ⟨rfl, rfl⟩
  | stray | coefOk | convOk | adcOk | setregOk | failed => exact absurd rfl (he _)

theorem busy_of_isTransaction {s : State} (hst : s.st.isTransaction = true) : s.busy = true :=
  (State.busy_iff s).2 fun h => by rw [h] at hst; cases hst

/-- With no input placed, a step in a transaction state is a tick that no rule enables (R77). -/
theorem step_of_transaction_no_inputs {s : State} (hst : s.st.isTransaction = true) (hl : s.codesLegal = true)
    (hin : s.inputs = []) : step s = .next s := by
  have htick : onTick s = s := by
    rcases onTick_cases s with ⟨h, -⟩ | ⟨h, -⟩ | ⟨-, -, h⟩
    · rw [h] at hst; cases hst
    · rw [h] at hst; cases hst
    · exact h
  rw [step_of_no_inputs hin, handle, if_pos hl, seqEvent, htick]

/-- Settles O29: the events left to a transaction state are an answer on the host bus and the handshake of the port. -/
theorem onlyAnAnswerOrResetEndsTheWait : Obligations.OnlyAnAnswerOrResetEndsTheWait := by
  refine ⟨fun s t e hst h hr hresp => ?_, fun s n hst hl hin => ?_⟩
  · have hbusy := busy_of_isTransaction hst
    have hidle := (State.busy_iff s).1 hbusy
    rcases handle_cases_of_no_reset h hr with ⟨x, o, hside, rfl⟩ | ⟨w, a, -, hst', -⟩ | ⟨q, u, x, o, hq, m, rfl⟩
    · have hnone := hside.resolve_left hidle
      exact ⟨rfl, rfl, hbusy, by rw [hnone, if_neg (by simp)]⟩
    · exact absurd hst' hidle
    · rcases m.of_transaction hst (fun r hqr => hresp r (by rw [hq, hqr])) with ⟨hne, rfl⟩ | ⟨rfl, rfl⟩
      · exact ⟨rfl, rfl, hbusy, by rw [hq, if_neg (by simpa using hne)]⟩
      · exact ⟨rfl, rfl, hbusy, by rw [hq, if_pos rfl]; rfl⟩
  · induction n with
    | zero => exact .refl s
    | succ n ih => exact .head (step_of_transaction_no_inputs hst hl hin) ih

/-! ### The moves of `st` -/

/-- Where a command write leads from `IDLE` (R83 to R86). -/
theorem CommandMove.st_cases {s t : State} {w : Word} (m : CommandMove s w t) :
    t.st = s.st ∨ (t.st = .coef ∧ decode w = .command .measure) ∨
      (t.st = .setwr ∧ ∃ addr value, decode w = .command (.setreg addr value) ∧ addr ≤ 0x02) := by
  cases m with
  | busy => exact .inl rfl
  | measure _ hd => exact .inr (.inl ⟨rfl, hd⟩)
  | setreg _ hd haddr => exact .inr (.inr ⟨rfl, _, _, hd, haddr⟩)
  | guarded hst | illegal hst => exact .inl hst.symm

/-- The four transaction states (R17). -/
theorem SeqState.isTransaction_iff (st : SeqState) :
    st.isTransaction = true ↔ st = .setwr ∨ st = .coef ∨ st = .conv ∨ st = .adc := by
  cases st <;> simp [SeqState.isTransaction]

/-- Settles O42, move by move. -/
theorem sequencerMovesOnlyAsListed : Obligations.SequencerMovesOnlyAsListed := by
  intro s t e h hne
  cases hr : e.isReset with
  | true =>
    obtain ⟨a, rfl⟩ := e.isReset_iff.1 hr
    obtain ⟨x, rfl⟩ := handle_rst_cases h
    exact .inl ⟨rfl, rfl⟩
  | false =>
  refine .inr ?_
  rcases handle_cases_of_no_reset h hr with ⟨x, o, -, rfl⟩ | ⟨w, a, hw, hst, m⟩ | ⟨q, u, x, o, hq, m, rfl⟩
  · exact absurd rfl hne
  · rcases m.st_cases with hsame | ⟨ht, hd⟩ | ⟨ht, addr, value, hd, haddr⟩
    · exact absurd hsame hne
    · exact .inl ⟨hst, ht, w, hw, hd⟩
    · exact .inr (.inl ⟨hst, ht, w, addr, value, hw, hd, haddr⟩)
  · refine .inr (.inr ?_)
    cases m with
    | count | noTick | taken | stray => exact absurd rfl hne
    | waitOver hst => exact .inr (.inr (.inr ⟨hq, .inl ⟨hst, rfl⟩⟩))
    | compute hst => exact .inr (.inr (.inr ⟨hq, .inr ⟨hst, rfl⟩⟩))
    | coefOk hst _ hok => exact .inl ⟨⟨_, hq, hok⟩, .inl ⟨hst, rfl⟩⟩
    | convOk hst _ hok => exact .inl ⟨⟨_, hq, hok⟩, .inr (.inl ⟨hst, rfl⟩)⟩
    | adcOk hst _ hok => exact .inl ⟨⟨_, hq, hok⟩, .inr (.inr ⟨hst, rfl⟩)⟩
    | setregOk hst => exact .inr (.inl ⟨⟨_, hq⟩, hst, rfl⟩)
    | failed hrow _ hfail =>
      rcases (SeqState.isTransaction_iff _).1 (failureRow_eq_some hrow).2 with hst | hst
      · exact .inr (.inl ⟨⟨_, hq⟩, hst, rfl⟩)
      · exact .inr (.inr (.inl ⟨⟨_, hq, hfail⟩, hst, rfl⟩))

/-! ### The results -/

/-- No command write touches `PRESS` or `TEMP`, and none sets `VALID` (R27, R95). -/
theorem CommandMove.results {s t : State} {w : Word} (m : CommandMove s w t) :
    t.press = s.press ∧ t.temp = s.temp ∧ (t.valid = true → s.valid = true) := by
  cases m with
  | busy | setreg | guarded | illegal => exact ⟨rfl, rfl, id⟩
  | measure => exact ⟨rfl, rfl, Bool.noConfusion⟩

/-- Every move of the sequencer's side but the `COMP` tick leaves `PRESS`, `TEMP` and `VALID`. -/
theorem SeqMove.results {s t : State} {e : SeqEvent} (m : SeqMove s e t) :
    (t.press = s.press ∧ t.temp = s.temp ∧ t.valid = s.valid) ∨ (s.st = .comp ∧ e = .tick ∧ t = compTick s) := by
  cases m with
  | compute hst => exact .inr ⟨hst, rfl, rfl⟩
  | count | waitOver | noTick | taken | stray | coefOk | convOk | adcOk | setregOk | failed =>
    exact .inl ⟨rfl, rfl, rfl⟩

/-- Settles O43: the `COMP` tick is the only move that is left. -/
theorem resultsChangeOnlyAtCompletion : Obligations.ResultsChangeOnlyAtCompletion := by
  intro s t e h hchange
  have hkept : ¬ (t.press = s.press ∧ t.temp = s.temp ∧ (t.valid = true → s.valid = true)) := by
    rintro ⟨hpress, htemp, hvalid⟩
    rcases hchange with hc | hc | ⟨hs, ht⟩
    · exact hc hpress
    · exact hc htemp
    · rw [hvalid ht] at hs; cases hs
  cases hr : e.isReset with
  | true => exact .inl rfl
  | false =>
    rcases handle_cases_of_no_reset h hr with ⟨x, o, -, rfl⟩ | ⟨w, a, -, -, m⟩ | ⟨q, u, x, o, hq, m, rfl⟩
    · exact absurd ⟨rfl, rfl, id⟩ hkept
    · exact absurd m.results hkept
    · rcases m.results with ⟨hpress, htemp, hvalid⟩ | ⟨hst, rfl, rfl⟩
      · exact absurd ⟨hpress, htemp, hvalid.symm.trans⟩ hkept
      · exact .inr ⟨hst, hq, rfl, rfl, rfl⟩

/-! ### The observation record -/

/-- What one event appends to `txlog` in a block for the device `dev` (R14, R55). -/
inductive LogStep (dev : DevAddr) : List TxEntry → Prop
  | nothing : LogStep dev []
  | request {q : Request} (hq : requestAllowed dev q) : LogStep dev [.issued q]
  | answer (o : TxnOutcome) : LogStep dev [.outcome o]
  | answerThenRequest (o : TxnOutcome) {q : Request} (hq : requestAllowed dev q) :
      LogStep dev [.outcome o, .issued q]

/-- The requests of a move are among the four kinds of R53. -/
theorem LogStep.allowed {dev : DevAddr} {added : List TxEntry} (hadd : LogStep dev added) :
    ∀ q ∈ requestsOf added, requestAllowed dev q := by
  cases hadd with
  | nothing | answer => simp [requestsOf]
  | request hq | answerThenRequest _ hq => simpa [requestsOf] using hq

theorem requestAllowed_coefRequest (dev : DevAddr) : requestAllowed dev (coefRequest dev) := .inl rfl

theorem requestAllowed_adcRequest (dev : DevAddr) : requestAllowed dev (adcRequest dev) := .inr (.inl rfl)

theorem requestAllowed_convRequest (dev : DevAddr) : requestAllowed dev (convRequest dev) := .inr (.inr (.inl rfl))

theorem requestAllowed_setreg (dev : DevAddr) {addr : Byte} (value : Byte) (haddr : addr ≤ 0x02) :
    requestAllowed dev (txnWrite dev addr value) := .inr (.inr (.inr ⟨addr, value, haddr, rfl⟩))

theorem requestAllowed.dev_eq {dev : DevAddr} {q : Request} (h : requestAllowed dev q) : q.dev = dev := by
  rcases h with rfl | rfl | rfl | ⟨_, _, _, rfl⟩ <;> rfl

/-- `t` has the parameters of `s` and its record, lengthened as one event may. -/
def State.LogGrows (s t : State) : Prop :=
  t.cfg = s.cfg ∧ ∃ added, LogStep s.cfg.devAddr added ∧ t.txlog = s.txlog ++ added

theorem State.LogGrows.of_eq {s t : State} (hcfg : t.cfg = s.cfg) (hlog : t.txlog = s.txlog) : s.LogGrows t :=
  ⟨hcfg, [], .nothing, by rw [hlog, List.append_nil]⟩

theorem CommandMove.logGrows {s t : State} {w : Word} (m : CommandMove s w t) : s.LogGrows t := by
  cases m with
  | busy | guarded | illegal => exact .of_eq rfl rfl
  | measure => exact ⟨rfl, _, .request (requestAllowed_coefRequest _), rfl⟩
  | setreg _ _ haddr => exact ⟨rfl, _, .request (requestAllowed_setreg _ _ haddr), rfl⟩

theorem SeqMove.logGrows {s t : State} {e : SeqEvent} (m : SeqMove s e t) : s.LogGrows t := by
  cases m with
  | count | compute | noTick | taken | stray => exact .of_eq rfl rfl
  | waitOver => exact ⟨rfl, _, .request (requestAllowed_adcRequest _), rfl⟩
  | coefOk => exact ⟨rfl, _, .answerThenRequest _ (requestAllowed_convRequest _), List.append_assoc _ _ _⟩
  | convOk | adcOk | setregOk | failed => exact ⟨rfl, _, .answer _, rfl⟩

theorem handle_logGrows {e : Event} {s t : State} (h : handle e s = .next t) (hr : e.isReset = false) :
    s.LogGrows t := by
  rcases handle_cases_of_no_reset h hr with ⟨x, o, -, rfl⟩ | ⟨w, a, -, -, m⟩ | ⟨q, u, x, o, -, m, rfl⟩
  · exact .of_eq rfl rfl
  · exact m.logGrows
  · exact m.logGrows

/-- Settles O45. -/
theorem transactionLogOnlyGrows : Obligations.TransactionLogOnlyGrows := by
  refine ⟨fun s t e h hr => ?_, fun s a => ⟨resetEdge a s, rfl, by cases a <;> rfl⟩⟩
  obtain ⟨-, added, hadd, hlog⟩ := handle_logGrows h hr
  cases hadd with
  | nothing => exact .inl (by rw [hlog, List.append_nil])
  | request => exact .inr (.inl ⟨_, hlog⟩)
  | answer => exact .inr (.inr (.inl ⟨_, hlog⟩))
  | answerThenRequest => exact .inr (.inr (.inr ⟨_, _, hlog⟩))

/-- A lengthened record holds allowed requests only, when the old one does. -/
theorem State.LogGrows.allowed {s t : State} (hgrow : s.LogGrows t)
    (hs : ∀ q ∈ requestsOf s.txlog, requestAllowed s.cfg.devAddr q) :
    ∀ q ∈ requestsOf t.txlog, requestAllowed s.cfg.devAddr q := by
  obtain ⟨-, added, hadd, hlog⟩ := hgrow
  intro q hq
  rw [hlog, requestsOf_append, List.mem_append] at hq
  exact hq.elim (hs q) (hadd.allowed q)

/-- Settles O46: a reset empties the record, and every other event appends allowed requests at most. -/
theorem requestsGoOnlyToAllowedRegisters : Obligations.RequestsGoOnlyToAllowedRegisters := by
  intro s t hs h
  have hkept : t.cfg = s.cfg ∧ ∀ q ∈ requestsOf t.txlog, requestAllowed s.cfg.devAddr q := by
    rw [step_eq] at h
    cases hr : s.nextEvent.isReset with
    | true =>
      obtain ⟨a, ha⟩ := (Event.isReset_iff _).1 hr
      rw [ha] at h
      obtain ⟨x, rfl⟩ := handle_rst_cases h
      exact ⟨rfl, fun q hq => absurd hq (List.not_mem_nil (a := q))⟩
    | false =>
      have hgrow := handle_logGrows h hr
      exact ⟨hgrow.1, hgrow.allowed hs⟩
  obtain ⟨hcfg, hall⟩ := hkept
  rw [hcfg]
  exact ⟨rfl, fun q hq => ⟨hall q hq, (hall q hq).dev_eq⟩⟩

/-! ### Rounding: its order, and its place among the rationals -/

/-- The rounded quotient is within one half of the quotient, on both sides. -/
theorem two_mul_sub_mul_rne_bounds {num den : Int} (hden : 0 < den) :
    -den ≤ 2 * (num - den * rne num den) ∧ 2 * (num - den * rne num den) ≤ den := by
  have hnear := (roundingIsToNearestTiesToEven num den hden).1
  have hpos := le_abs_self (num - den * rne num den)
  have hneg := neg_abs_le (num - den * rne num den)
  constructor <;> linarith

/-- Rounding is monotone: two dividends whose order it turned around would be the same one. -/
theorem rne_mono {num num' den : Int} (hden : 0 < den) (h : num ≤ num') : rne num den ≤ rne num' den := by
  by_contra hlt
  have hstep : den * (rne num' den + 1) ≤ den * rne num den := mul_le_mul_of_nonneg_left (by omega) hden.le
  have hlow := (two_mul_sub_mul_rne_bounds (num := num) hden).1
  have hhigh := (two_mul_sub_mul_rne_bounds (num := num') hden).2
  have heq : num = num' := by linarith
  exact hlt (by rw [heq])

/-- The distance of a quotient from the rounded one, over the rationals. -/
theorem abs_div_sub_rne {num den : Int} (hden : 0 < den) :
    |(num : ℚ) / den - rne num den| = ((|num - den * rne num den| : Int) : ℚ) / den := by
  have hq : (0 : ℚ) < den := by exact_mod_cast hden
  have hdist : (num : ℚ) / den - rne num den = (num - den * rne num den) / den := by field_simp
  rw [hdist, abs_div, abs_of_pos hq]
  push_cast
  rfl

theorem abs_div_sub_rne_le {num den : Int} (hden : 0 < den) : |(num : ℚ) / den - rne num den| ≤ 1 / 2 := by
  have hq : (0 : ℚ) < den := by exact_mod_cast hden
  have hnear : (2 : ℚ) * ((|num - den * rne num den| : Int) : ℚ) ≤ den := by
    exact_mod_cast (roundingIsToNearestTiesToEven num den hden).1
  rw [abs_div_sub_rne hden, div_le_iff₀ hq]
  linarith

/-- At a distance of exactly one half the rounded quotient is even. -/
theorem rne_even_of_abs_div_sub_eq {num den : Int} (hden : 0 < den)
    (h : |(num : ℚ) / den - rne num den| = 1 / 2) : rne num den % 2 = 0 := by
  have hq : (den : ℚ) ≠ 0 := by exact_mod_cast hden.ne'
  rw [abs_div_sub_rne hden, div_eq_iff hq] at h
  refine (roundingIsToNearestTiesToEven num den hden).2 ?_
  have htie : (2 : ℚ) * ((|num - den * rne num den| : Int) : ℚ) = den := by linarith
  exact_mod_cast htie

/-- By an odd divisor no quotient is a tie. -/
theorem abs_div_sub_rne_lt_of_odd {num den : Int} (hden : 0 < den) (hodd : den % 2 = 1) :
    |(num : ℚ) / den - rne num den| < 1 / 2 := by
  have hq : (0 : ℚ) < den := by exact_mod_cast hden
  have hnear : (2 : ℚ) * ((|num - den * rne num den| : Int) : ℚ) < den := by
    exact_mod_cast two_mul_abs_sub_mul_rne_lt hden (by omega)
  rw [abs_div_sub_rne hden, div_lt_iff₀ hq]
  linarith

/-! ### `PRESS` -/

/-- A factor between 0 and 1023 stretches an interval around 0 by 1023 at most. -/
theorem mul_count_bounds {a lo hi n : Int} (hlo : lo ≤ a) (hhi : a ≤ hi) (hlo0 : lo ≤ 0) (hhi0 : 0 ≤ hi)
    (hn0 : 0 ≤ n) (hn : n ≤ 1023) : lo * 1023 ≤ a * n ∧ a * n ≤ hi * 1023 := by
  constructor
  · calc lo * 1023 ≤ lo * n := mul_le_mul_of_nonpos_left hn hlo0
      _ ≤ a * n := mul_le_mul_of_nonneg_right hlo hn0
  · calc a * n ≤ hi * n := mul_le_mul_of_nonneg_right hhi hn0
      _ ≤ hi * 1023 := mul_le_mul_of_nonneg_left hn hhi0

/-- The compensated pressure stays between its two extreme inputs (R102). -/
theorem RawInputs.p22_bounds (x : RawInputs) : -51497672704 ≤ x.p22 ∧ x.p22 ≤ 51495316223 := by
  have toInt16 (u : BitVec 16) : -32768 ≤ u.toInt ∧ u.toInt ≤ 32767 := by
    have hl := u.le_toInt; have hu := u.toInt_lt; norm_num at hl hu; omega
  have toInt14 (u : BitVec 14) : -8192 ≤ u.toInt ∧ u.toInt ≤ 8191 := by
    have hl := u.le_toInt; have hu := u.toInt_lt; norm_num at hl hu; omega
  obtain ⟨ha0, ha0'⟩ := toInt16 x.a0Raw
  obtain ⟨hb1, hb1'⟩ := toInt16 x.b1Raw
  obtain ⟨hb2, hb2'⟩ := toInt16 x.b2Raw
  obtain ⟨hc12, hc12'⟩ := toInt14 x.c12Raw
  have hpadc : (x.padc.toNat : Int) ≤ 1023 := by have := x.padc.isLt; omega
  have htadc : (x.tadc.toNat : Int) ≤ 1023 := by have := x.tadc.isLt; omega
  have hp0 : 0 ≤ (x.padc.toNat : Int) := Int.natCast_nonneg _
  have ht0 : 0 ≤ (x.tadc.toNat : Int) := Int.natCast_nonneg _
  obtain ⟨hc12t, hc12t'⟩ := mul_count_bounds hc12 hc12' (by norm_num) (by norm_num) ht0 htadc
  obtain ⟨hsum, hsum'⟩ := mul_count_bounds (a := x.b1Raw.toInt * 2 ^ 9 + x.c12Raw.toInt * x.tadc.toNat)
    (lo := -32768 * 2 ^ 9 + -8192 * 1023) (hi := 32767 * 2 ^ 9 + 8191 * 1023) (n := x.padc.toNat)
    (by linarith) (by linarith) (by norm_num) (by norm_num) hp0 hpadc
  obtain ⟨hb2t, hb2t'⟩ := mul_count_bounds (a := x.b2Raw.toInt * 2 ^ 8) (lo := -32768 * 2 ^ 8) (hi := 32767 * 2 ^ 8)
    (by linarith) (by linarith) (by norm_num) (by norm_num) ht0 htadc
  simp only [RawInputs.p22, p22Of, a0Q22, b1Q22, b2Q22, c12Q22, toSigned_eq_toInt]
  constructor <;> linarith

/-- The pressure at the two ends of `P22` (R104). -/
theorem p100Of_ends : p100Of (-51497672704) = -73013 ∧ p100Of 51495316223 = 83009 := by decide

theorem p100Of_mono {p q : Int} (h : p ≤ q) : p100Of p ≤ p100Of q :=
  add_le_add_left (rne_mono (by norm_num) (by linarith)) 5000

theorem RawInputs.p100_bounds (x : RawInputs) : -73013 ≤ p100Of x.p22 ∧ p100Of x.p22 ≤ 83009 := by
  obtain ⟨hlo, hhi⟩ := x.p22_bounds
  exact ⟨p100Of_ends.1 ▸ p100Of_mono hlo, p100Of_ends.2 ▸ p100Of_mono hhi⟩

/-- A result register holds its number: both ranges are far inside 32 bits (R30, R31). -/
theorem toInt_sext_of_small {x : Int} (hlo : -100000 ≤ x) (hhi : x ≤ 100000) : (sext 32 x).toInt = x := by
  rw [sext, BitVec.toInt_ofInt]
  exact Int.bmod_eq_of_le (by norm_num; omega) (by norm_num; omega)

theorem RawInputs.pressWord_toInt (x : RawInputs) : x.pressWord.toInt = p100Of x.p22 := by
  obtain ⟨hlo, hhi⟩ := x.p100_bounds
  exact toInt_sext_of_small (by linarith) (by linarith)

/-- The source's formula is the quotient that the block rounds (R101, R102, R104). -/
theorem exactP100_eq (x : RawInputs) :
    exactP100 x = ((6500 * x.p22 : Int) : ℚ) / ((1023 * 2 ^ 22 : Int) : ℚ) + 5000 := by
  simp only [exactP100, RawInputs.p22, p22Of, a0Q22, b1Q22, b2Q22, c12Q22, toSigned_eq_toInt]
  push_cast
  ring

/-- What `PRESS` misses of the source's formula is what the rounding misses of its quotient. -/
theorem exactP100_sub_pressWord (x : RawInputs) :
    exactP100 x - (x.pressWord.toInt : ℚ) =
      ((6500 * x.p22 : Int) : ℚ) / ((1023 * 2 ^ 22 : Int) : ℚ) - rne (6500 * x.p22) (1023 * 2 ^ 22) := by
  rw [exactP100_eq, x.pressWord_toInt, p100Of]
  push_cast
  ring

/-- Settles O35. -/
theorem pressureIsTheExactFormulaRounded : Obligations.PressureIsTheExactFormulaRounded := by
  intro x
  have hden : (0 : Int) < 1023 * 2 ^ 22 := by norm_num
  rw [exactP100_sub_pressWord]
  refine ⟨abs_div_sub_rne_le hden, fun htie => ?_, ?_⟩
  · have heven := rne_even_of_abs_div_sub_eq hden htie
    rw [x.pressWord_toInt, p100Of]
    omega
  · rw [x.pressWord_toInt]
    exact x.p100_bounds

/-! ### `TEMP` -/

/-- The temperature at the two ends of `TADC`, and at 25 degrees (R105). -/
theorem t10Of_ends : t10Of 0 = 1181 ∧ t10Of 498 = 250 ∧ t10Of 1023 = -731 := by decide

theorem t10Of_antitone {u v : BitVec 10} (h : u ≤ v) : t10Of v ≤ t10Of u := by
  have hnat : u.toNat ≤ v.toNat := h
  exact add_le_add_left (rne_mono (by norm_num) (by omega)) 250

theorem t10Of_bounds (u : BitVec 10) : -731 ≤ t10Of u ∧ t10Of u ≤ 1181 := by
  have hlast : u ≤ 1023 := by have := u.isLt; rw [BitVec.le_def]; change u.toNat ≤ 1023; omega
  have hfirst : 0 ≤ u := Nat.zero_le _
  exact ⟨t10Of_ends.2.2 ▸ t10Of_antitone hlast, t10Of_ends.1 ▸ t10Of_antitone hfirst⟩

theorem RawInputs.tempWord_toInt (x : RawInputs) : x.tempWord.toInt = t10Of x.tadc := by
  obtain ⟨hlo, hhi⟩ := t10Of_bounds x.tadc
  exact toInt_sext_of_small (by linarith) (by linarith)

/-- What `TEMP` misses of the source's formula is what the rounding misses of its quotient, by the odd 107. -/
theorem exactT10_sub_tempWord (x : RawInputs) :
    10 * (((x.tadc.toNat : ℚ) - 498) / (-(535 / 100)) + 25) - (x.tempWord.toInt : ℚ) =
      ((200 * (498 - (x.tadc.toNat : Int)) : Int) : ℚ) / ((107 : Int) : ℚ) -
        rne (200 * (498 - (x.tadc.toNat : Int))) 107 := by
  rw [x.tempWord_toInt, t10Of]
  push_cast
  ring

/-- Settles O37: 107 is odd, so no tie occurs. -/
theorem temperatureIsTheExactFormulaRounded : Obligations.TemperatureIsTheExactFormulaRounded := by
  refine ⟨fun x => ?_, fun _ _ => t10Of_antitone, t10Of_ends⟩
  rw [exactT10_sub_tempWord, x.tempWord_toInt]
  exact ⟨abs_div_sub_rne_lt_of_odd (by norm_num) (by norm_num), rfl, t10Of_bounds x.tadc⟩

/-- The results of any inputs lie in the ranges of R30 and R31. -/
theorem resultsInRange_of_words {s : State} {x : RawInputs} (hpress : s.press = x.pressWord)
    (htemp : s.temp = x.tempWord) : s.resultsInRange := by
  rw [State.resultsInRange, hpress, htemp, x.pressWord_toInt, x.tempWord_toInt]
  exact ⟨x.p100_bounds.1, x.p100_bounds.2, t10Of_bounds x.tadc⟩

/-! ### The invariant -/

/-- The clauses of `State.Inv` that speak neither of `st` nor of the flags of a command, for a block with nothing
outstanding: what a command starts from, and what an answer leaves to its handler. -/
structure State.Settled (s : State) : Prop where
  noReq : s.req = none
  notPresented : s.reqValid = false
  noWait : s.wcnt = 0
  validResults : s.valid = true → s.press = s.rawInputs.pressWord ∧ s.temp = s.rawInputs.tempWord
  inRange : s.resultsInRange
  logSound : logPaired s.txlog = true
  logClosed : openRequest s.txlog = none

/-- No error is recorded and no command is done: the flags of a running command (R84). -/
structure State.RecordClear (s : State) : Prop where
  notDone : s.done = false
  noErr : s.err = false
  codesZero : s.errcode = 0 ∧ s.errstage = 0

theorem State.RecordClear.sound {s : State} (h : s.RecordClear) : s.errorRecordSound := by
  rw [State.errorRecordSound, h.noErr]
  exact h.codesZero

/-- Settles O38. -/
theorem resetMeetsTheInvariant : Obligations.ResetMeetsTheInvariant where
  stUsed := by decide
  reqOfState := rfl
  presentedOutstanding := by decide
  recordSound := ⟨rfl, rfl⟩
  errDone := by decide
  doneIdle := by decide
  measureNotValid := by decide
  waitBounded := Nat.zero_le _
  waitOnlyInDelay := fun _ => rfl
  latchedWritable := by decide
  validResults := by decide
  inRange := by unfold State.resultsInRange; decide
  logSound := rfl
  logOpen := rfl

namespace State.Inv

variable {s : State}

/-- The invariant says nothing of the host bus, of `OVERRUN` or of the coming events. -/
theorem update_host (h : s.Inv) (x : Option HostAnswer) (o : Bool) (i : List Event) :
    ({ s with hostAnswer := x, overrun := o, inputs := i }).Inv := { h with }

/-- A reset gives the reset state with the block's own parameters. -/
theorem rst (s : State) : s.rst.Inv := { resetMeetsTheInvariant with waitBounded := Nat.zero_le _ }

/-- A state without a transaction has no request outstanding (R17). -/
theorem req_eq_none (h : s.Inv) (hst : s.st.isTransaction = false) : s.req = none := by
  rw [h.reqOfState, State.expectedRequest]
  cases hs : s.st with
  | coef | conv | adc | setwr => rw [hs] at hst; cases hst
  | idle | delay | comp | unused => rfl

/-- A state without a transaction, its wait not begun or run out, is settled. -/
theorem settled (h : s.Inv) (hst : s.st.isTransaction = false) (hw : s.wcnt = 0) : s.Settled where
  noReq := h.req_eq_none hst
  notPresented := Bool.eq_false_iff.2 fun hv => by
    have hsome := h.presentedOutstanding hv
    rw [h.req_eq_none hst] at hsome
    cases hsome
  noWait := hw
  validResults := h.validResults
  inRange := h.inRange
  logSound := h.logSound
  logClosed := h.logOpen.trans (h.req_eq_none hst)

/-- The answer to the outstanding request leaves a settled block. -/
theorem settled_settle (h : s.Inv) {q : Request} {o : TxnOutcome} (hq : s.req = some q) (ho : o.answers q = true)
    (hst : s.st.isTransaction = true) : (s.settle o).Settled where
  noReq := rfl
  notPresented := rfl
  noWait := h.waitOnlyInDelay fun hs => by rw [hs] at hst; cases hst
  validResults := h.validResults
  inRange := h.inRange
  logSound := logPaired_append_outcome ho h.logSound (h.logOpen.trans hq)
  logClosed := openRequest_append_outcome _ _

/-- A running command has a clear record (R27, R84, R112). -/
theorem recordClear (h : s.Inv) (hst : s.st ≠ .idle) : s.RecordClear := by
  have hdone : s.done = false := Bool.eq_false_iff.2 fun hd => hst (h.doneIdle hd)
  have herr : s.err = false := Bool.eq_false_iff.2 fun he => by rw [h.errDone he] at hdone; cases hdone
  have hsound := h.recordSound
  rw [State.errorRecordSound, herr] at hsound
  exact ⟨hdone, herr, hsound⟩

/-- The acceptance of a command starts from a settled block with a clear record. -/
theorem settled_clearRecord (h : s.Inv) (hst : s.st = .idle) : s.clearRecord.Settled :=
  have hs := h.settled (by rw [hst]; rfl) (h.waitOnlyInDelay (by rw [hst]; decide))
  { hs with }

end State.Inv

theorem State.recordClear_clearRecord (s : State) : s.clearRecord.RecordClear := ⟨rfl, rfl, rfl, rfl⟩

namespace State.Settled

variable {u : State}

/-- A command ends by an error (R112). -/
theorem abort (h : u.Settled) {code stage : BitVec 4} (hrow : (code, stage) ∈ errorPairs) :
    (u.abort code stage).Inv where
  stUsed := by simp
  reqOfState := h.noReq
  presentedOutstanding hv := by cases h.notPresented.symm.trans hv
  recordSound := hrow
  errDone _ := rfl
  doneIdle _ := rfl
  measureNotValid hm := by cases hm
  waitBounded := h.noWait.trans_le (Nat.zero_le _)
  waitOnlyInDelay _ := h.noWait
  latchedWritable hst := by cases hst
  validResults := h.validResults
  inRange := h.inRange
  logSound := h.logSound
  logOpen := h.logClosed.trans h.noReq.symm

/-- A command ends with its record clear but for `DONE` (R87, R100). -/
theorem finish (h : u.Settled) (hrec : u.RecordClear) : u.finish.Inv where
  stUsed := by simp
  reqOfState := h.noReq
  presentedOutstanding hv := by cases h.notPresented.symm.trans hv
  recordSound := hrec.sound
  errDone _ := rfl
  doneIdle _ := rfl
  measureNotValid hm := by cases hm
  waitBounded := h.noWait.trans_le (Nat.zero_le _)
  waitOnlyInDelay _ := h.noWait
  latchedWritable hst := by cases hst
  validResults := h.validResults
  inRange := h.inRange
  logSound := h.logSound
  logOpen := h.logClosed.trans h.noReq.symm

/-- A command goes on to a transaction state `x` by issuing that state's request (R17). -/
theorem issue (h : u.Settled) (hrec : u.RecordClear) {x : SeqState} {q : Request}
    (hq : ({ u with st := x }).expectedRequest = some q) (hx : x.isTransaction = true)
    (hvalid : x.inMeasure = true → u.valid = false) (haddr : x = .setwr → u.lAddr ≤ 0x02) :
    (State.issue q { u with st := x }).Inv where
  stUsed hst := by rw [show x = .unused from hst] at hx; cases hx
  reqOfState := hq.symm
  presentedOutstanding _ := rfl
  recordSound := hrec.sound
  errDone he := by cases hrec.noErr.symm.trans he
  doneIdle hd := by cases hrec.notDone.symm.trans hd
  measureNotValid := hvalid
  waitBounded := h.noWait.trans_le (Nat.zero_le _)
  waitOnlyInDelay _ := h.noWait
  latchedWritable := haddr
  validResults := h.validResults
  inRange := h.inRange
  logSound := logPaired_append_issued q h.logSound h.logClosed
  logOpen := openRequest_append_issued _ _

/-- A running `MEASURE` goes on to a state `x` without a transaction, with `n` ticks to wait there. -/
theorem run (h : u.Settled) (hrec : u.RecordClear) (hvalid : u.valid = false) {x : SeqState} {n : Nat}
    (hx : x = .delay ∧ n ≤ u.cfg.convWaitCycles ∨ x = .comp ∧ n = 0) :
    ({ u with wcnt := n, st := x }).Inv where
  stUsed := by rcases hx with ⟨rfl, -⟩ | ⟨rfl, -⟩ <;> exact SeqState.noConfusion
  reqOfState := by rcases hx with ⟨rfl, -⟩ | ⟨rfl, -⟩ <;> exact h.noReq
  presentedOutstanding hv := by cases h.notPresented.symm.trans hv
  recordSound := hrec.sound
  errDone he := by cases hrec.noErr.symm.trans he
  doneIdle hd := by cases hrec.notDone.symm.trans hd
  measureNotValid _ := hvalid
  waitBounded := by rcases hx with ⟨-, hn⟩ | ⟨-, rfl⟩ <;> [exact hn; exact Nat.zero_le _]
  waitOnlyInDelay hst := by rcases hx with ⟨rfl, -⟩ | ⟨-, hn⟩ <;> [exact absurd rfl hst; exact hn]
  latchedWritable hst := by rcases hx with ⟨rfl, -⟩ | ⟨rfl, -⟩ <;> cases hst
  validResults := h.validResults
  inRange := h.inRange
  logSound := h.logSound
  logOpen := h.logClosed.trans h.noReq.symm

end State.Settled

/-- Every command write keeps the invariant. -/
theorem CommandMove.inv {s t : State} {w : Word} (m : CommandMove s w t) (h : s.Inv) : t.Inv := by
  have hrec := s.recordClear_clearRecord
  cases m with
  | busy => exact { h with }
  | measure hst =>
    have hset := h.settled_clearRecord hst
    have hset' : s.clearRecord.clearValid.Settled := { hset with validResults := Bool.noConfusion }
    exact hset'.issue { hrec with } rfl rfl (fun _ => rfl) SeqState.noConfusion
  | @setreg addr value hst _ haddr =>
    have hset := h.settled_clearRecord hst
    have hset' : (s.clearRecord.latch addr value).Settled := { hset with }
    exact hset'.issue { hrec with } rfl rfl Bool.noConfusion (fun _ => haddr)
  | @guarded addr value hst =>
    have hset := h.settled_clearRecord hst
    have hset' : (s.clearRecord.latch addr value).Settled := { hset with }
    exact hset'.abort (by decide)
  | illegal hst => exact (h.settled_clearRecord hst).abort (by decide)

/-- Every move of the sequencer's side keeps the invariant. -/
theorem SeqMove.inv {s t : State} {e : SeqEvent} (m : SeqMove s e t) (h : s.Inv) : t.Inv := by
  have hans {r : Response} {q : Request} (hq : s.req = some q) (hst : s.st.isTransaction = true) :
      (s.settle (r.outcome q.rlen)).Settled := h.settled_settle hq (r.outcome_answers q) hst
  have hrec {x : SeqState} (hst : s.st = x) (hx : x ≠ .idle) : s.RecordClear := h.recordClear (hst ▸ hx)
  have hvalid {x : SeqState} (hst : s.st = x) (hx : x.inMeasure = true) : s.valid = false :=
    h.measureNotValid (hst ▸ hx)
  cases m with
  | count hst hw =>
    exact { h with
      waitBounded := (Nat.sub_le _ _).trans h.waitBounded
      waitOnlyInDelay := fun hne => absurd hst hne }
  | waitOver hst hw =>
    exact (h.settled (by rw [hst]; rfl) hw).issue (hrec hst (by decide)) rfl rfl (fun _ => hvalid hst rfl)
      SeqState.noConfusion
  | compute hst =>
    have hset := h.settled (by rw [hst]; rfl) (h.waitOnlyInDelay (by rw [hst]; decide))
    have hset' : ({ s with
        press := s.rawInputs.pressWord
        temp := s.rawInputs.tempWord
        valid := true }).Settled :=
      { hset with validResults := fun _ => ⟨rfl, rfl⟩, inRange := resultsInRange_of_words rfl rfl }
    exact hset'.finish { hrec hst (by decide) with }
  | noTick => exact h
  | taken => exact { h with presentedOutstanding := Bool.noConfusion }
  | stray => exact h
  | @coefOk r q hst hq _ =>
    have hset := hans (r := r) hq (by rw [hst]; rfl)
    have hset' : ((s.settle (r.outcome q.rlen)).captureCoef r).Settled :=
      { hset with validResults := fun hv => by cases (hvalid hst rfl).symm.trans hv }
    exact hset'.issue { hrec hst (by decide) with } rfl rfl (fun _ => hvalid hst rfl) SeqState.noConfusion
  | convOk hst hq _ =>
    exact (hans hq (by rw [hst]; rfl)).run { hrec hst (by decide) with } (hvalid hst rfl) (.inl ⟨rfl, le_rfl⟩)
  | @adcOk r q hst hq _ =>
    have hset := hans (r := r) hq (by rw [hst]; rfl)
    have hset' : ((s.settle (r.outcome q.rlen)).captureAdc r).Settled :=
      { hset with validResults := fun hv => by cases (hvalid hst rfl).symm.trans hv }
    exact hset'.run { hrec hst (by decide) with } (hvalid hst rfl) (.inr ⟨rfl, hset.noWait⟩)
  | setregOk hst hq _ => exact (hans hq (by rw [hst]; rfl)).finish { hrec hst (by decide) with }
  | failed hrow hq _ =>
    obtain ⟨hpair, hst⟩ := failureRow_eq_some hrow
    exact (hans hq hst).abort hpair

/-- Every event keeps the invariant. -/
theorem handle_keeps_inv {e : Event} {s t : State} (hs : s.Inv) (h : handle e s = .next t) : t.Inv :=
  handle_keeps (P := State.Inv) (fun s _ => .rst s) (fun _ s hs => hs.update_host _ s.overrun s.inputs)
    (fun _ _ _ hs h => (commandWrite_move h).inv hs) (fun _ _ _ hs h => (seqEvent_move h).inv hs) hs h

/-- Settles O39: the next event is taken, which the invariant does not see, and handled. -/
theorem stepKeepsTheInvariant : Obligations.StepKeepsTheInvariant := fun s _ hs h =>
  handle_keeps_inv (hs.update_host s.hostAnswer s.overrun s.inputs.tail) h

/-! ### Reset -/

/-- Settles O1, row by row of R41. -/
theorem resetStateHoldsTheListedValues : Obligations.ResetStateHoldsTheListedValues :=
  ⟨rfl, rfl, rfl, rfl, rfl, rfl, rfl, rfl, rfl, rfl, rfl, rfl, rfl, rfl, rfl, rfl, rfl, rfl, rfl, rfl, rfl, rfl, rfl,
    fun _ => rfl⟩

/-! ### The host map -/

section HostMap

variable (s : State)

/-- Past the last register every offset reads 0 (R40). -/
theorem State.hostReg_reserved {off : Byte} (h : 0x20 ≤ off) : s.hostReg off = 0 := by
  have hne (c : Byte) (hc : c < 0x20) : off ≠ c := fun he => absurd (he ▸ h) (BitVec.not_le.2 hc)
  rw [State.hostReg, if_neg (hne _ (by decide)), if_neg (hne _ (by decide)), if_neg (hne _ (by decide)),
    if_neg (hne _ (by decide)), if_neg (hne _ (by decide)), if_neg (hne _ (by decide)), if_neg (hne _ (by decide))]

/-- A legal read answers with the register at its offset and changes nothing else (R44). -/
theorem hostAccess_read_legal {off : Byte} (h : off.extractLsb' 0 2 = 0#2) :
    hostAccess (.read off 0b1111) s = .next { s with hostAnswer := some (.data (s.hostReg off) false) } := by
  have hl : (HostAccess.read off 0b1111).legal = true := by simp [HostAccess.legal, HostAccess.off, HostAccess.be, h]
  rw [hostAccess, State.answer, State.answerTo, if_pos hl]

/-- A legal write outside `CMD` is answered and changes nothing else (R44, R46). -/
theorem hostAccess_write_readOnly {off : Byte} (h : off.extractLsb' 0 2 = 0#2) (hne : off ≠ 0x00) (data : Word) :
    hostAccess (.write off data 0b1111) s = .next { s with hostAnswer := some (.written false) } := by
  have hl : (HostAccess.write off data 0b1111).legal = true := by
    simp [HostAccess.legal, HostAccess.off, HostAccess.be, h]
  rw [hostAccess, if_neg (fun hc => hne hc.2), State.answer, State.answerTo, hl]
  rfl

end HostMap

/-- Settles O4. -/
theorem captureWordsShowTheirRegisters : Obligations.CaptureWordsShowTheirRegisters := by
  intro s
  refine ⟨?a0Raw, ?b1Raw, ?b2Raw, ?c12Raw, ?coef1Top, ?devAddr, ?cfgTop, fun off hoff data => ?readOnly⟩
  case a0Raw => exact BitVec.extractLsb'_append_eq_right
  case b1Raw => exact BitVec.extractLsb'_append_eq_left
  case b2Raw => exact BitVec.extractLsb'_append_eq_right
  case c12Raw => exact (BitVec.extractLsb'_append_eq_of_le (by decide)).trans BitVec.extractLsb'_append_eq_right
  case coef1Top => exact (BitVec.extractLsb'_append_eq_of_le (by decide)).trans BitVec.extractLsb'_append_eq_left
  case devAddr => exact BitVec.extractLsb'_append_eq_right
  case cfgTop => exact BitVec.extractLsb'_append_eq_left
  case readOnly =>
    have hreg : off.extractLsb' 0 2 = 0#2 ∧ off ≠ 0x00 := by
      revert off
      decide
    exact ⟨hostAccess_read_legal s hreg.1, hostAccess_write_readOnly s hreg.1 hreg.2 data⟩

/-- The five lowest bits of `STATUS`, from the right of its word (R35). -/
theorem State.statusWord_flags (s : State) :
    s.statusWord.getLsbD 0 = s.busy ∧ s.statusWord.getLsbD 1 = s.done ∧ s.statusWord.getLsbD 2 = s.err ∧
      s.statusWord.getLsbD 3 = s.valid ∧ s.statusWord.getLsbD 4 = s.overrun := by
  refine ⟨?_, ?_, ?_, ?_, ?_⟩ <;> rw [State.statusWord, BitVec.getLsbD_append]
  · simp
  · rw [BitVec.getLsbD_append]; simp
  · rw [BitVec.getLsbD_append, BitVec.getLsbD_append]; simp
  · rw [BitVec.getLsbD_append, BitVec.getLsbD_append, BitVec.getLsbD_append]; simp
  · rw [BitVec.getLsbD_append, BitVec.getLsbD_append, BitVec.getLsbD_append, BitVec.getLsbD_append]; simp

/-- Above its five flags `STATUS` shows the two codes, between reserved bits (R35). -/
theorem State.statusWord_above_flags (s : State) (n : Nat) {i : Nat} (h : 5 ≤ i) :
    s.statusWord.extractLsb' i n = (0#16 ++ s.errstage ++ s.errcode ++ 0#3).extractLsb' (i - 5) n := by
  rw [State.statusWord, BitVec.extractLsb'_append_eq_of_le (by omega),
    BitVec.extractLsb'_append_eq_of_le (by omega), BitVec.extractLsb'_append_eq_of_le (by omega),
    BitVec.extractLsb'_append_eq_of_le (by omega), BitVec.extractLsb'_append_eq_of_le (by omega)]
  simp only [Nat.sub_sub]

/-- Settles O5. -/
theorem statusWordShowsItsFields : Obligations.StatusWordShowsItsFields := by
  intro s
  obtain ⟨hbusy, hdone, herr, hvalid, hoverrun⟩ := s.statusWord_flags
  refine ⟨?busy, hdone, herr, hvalid, hoverrun, ?reserved, ?errcode, ?errstage, ?top,
    hostAccess_read_legal s (by decide), hostAccess_write_readOnly s (by decide) (by decide)⟩
  case busy => exact (Bool.eq_iff_iff.1 hbusy).trans s.busy_iff
  case reserved => exact (s.statusWord_above_flags 3 (by decide)).trans BitVec.extractLsb'_append_eq_right
  case errcode =>
    exact (s.statusWord_above_flags 4 (by decide)).trans <|
      (BitVec.extractLsb'_append_eq_of_le (by decide)).trans BitVec.extractLsb'_append_eq_right
  case errstage =>
    exact (s.statusWord_above_flags 4 (by decide)).trans <|
      (BitVec.extractLsb'_append_eq_of_le (by decide)).trans <|
      (BitVec.extractLsb'_append_eq_of_le (by decide)).trans BitVec.extractLsb'_append_eq_right
  case top =>
    exact (s.statusWord_above_flags 16 (by decide)).trans <|
      (BitVec.extractLsb'_append_eq_of_le (by decide)).trans <|
      (BitVec.extractLsb'_append_eq_of_le (by decide)).trans BitVec.extractLsb'_append_eq_left

/-- Settles O6. -/
theorem hostMapReadsItsRegisters : Obligations.HostMapReadsItsRegisters := by
  intro s
  refine ⟨rfl, rfl, rfl, ?padc, ?low, ?tadc, ?high, fun off => s.hostReg_reserved⟩
  case padc => exact BitVec.extractLsb'_append_eq_right
  case low => exact (BitVec.extractLsb'_append_eq_of_le (by decide)).trans BitVec.extractLsb'_append_eq_right
  case tadc =>
    exact (BitVec.extractLsb'_append_eq_of_le (by decide)).trans <|
      (BitVec.extractLsb'_append_eq_of_le (by decide)).trans BitVec.extractLsb'_append_eq_right
  case high =>
    exact (BitVec.extractLsb'_append_eq_of_le (by decide)).trans <|
      (BitVec.extractLsb'_append_eq_of_le (by decide)).trans BitVec.extractLsb'_append_eq_left

end Sys2Proof.Machine
end

section
/-! Proofs of the family `20_memory`: the host access (R44) and the answer on the host bus (R46). -/

namespace Sys2Proof.Machine

/-! ### What an access does by its legality -/

/-- An illegal access is answered and changes nothing else (R44). -/
theorem hostAccess_of_illegal {a : HostAccess} (h : a.legal = false) (s : State) :
    hostAccess a s = .next (s.answer a) := by
  cases a with
  | read off be => rfl
  | write off data be => exact if_neg fun hc => Bool.false_ne_true (h.symm.trans hc.1)

/-- The legality of an access, as the `if` of R44 asks for it. -/
theorem HostAccess.legal_eq_false_iff (a : HostAccess) :
    a.legal = false ↔ a.off.extractLsb' 0 2 ≠ 0 ∨ a.be ≠ 0b1111 := by
  rw [HostAccess.legal, Bool.and_eq_false_iff, decide_eq_false_iff_not, decide_eq_false_iff_not]
  rfl

theorem hostAccess_write_illegal (s : State) {off : Byte} (data : Word) {be : BitVec 4}
    (h : off.extractLsb' 0 2 ≠ 0 ∨ be ≠ 0b1111) :
    hostAccess (.write off data be) s = .next { s with hostAnswer := some (.written true) } := by
  have hl := (HostAccess.legal_eq_false_iff (.write off data be)).2 h
  rw [hostAccess_of_illegal hl, State.answer, State.answerTo, hl]
  rfl

theorem hostAccess_read_illegal (s : State) {off : Byte} {be : BitVec 4}
    (h : off.extractLsb' 0 2 ≠ 0 ∨ be ≠ 0b1111) :
    hostAccess (.read off be) s = .next { s with hostAnswer := some (.data 0 true) } := by
  have hl := (HostAccess.legal_eq_false_iff (.read off be)).2 h
  rw [hostAccess_of_illegal hl, State.answer, State.answerTo, hl]
  rfl

/-- Settles O3: the illegal access, then the legal write at 0x00, the other legal writes and the legal read. -/
theorem hostAccessDoesWhatItsPseudocodeSays : Obligations.HostAccessDoesWhatItsPseudocodeSays := by
  intro s off data be
  by_cases hill : off.extractLsb' 0 2 ≠ 0 ∨ be ≠ 0b1111
  · rw [if_pos hill, if_pos hill]
    exact ⟨hostAccess_write_illegal s data hill, hostAccess_read_illegal s hill⟩
  · rw [if_neg hill, if_neg hill]
    obtain ⟨hoff, hbe⟩ := not_or.1 hill
    obtain rfl := not_not.1 hbe
    refine ⟨?_, hostAccess_read_legal s (not_not.1 hoff)⟩
    by_cases hcmd : off = 0x00
    · rw [if_pos hcmd, hcmd]
      exact hostAccess_command data s
    · rw [if_neg hcmd]
      exact hostAccess_write_readOnly s (not_not.1 hoff) hcmd data

/-! ### What the last answer influences -/

section LastAnswer

variable (s : State) (x : Option HostAnswer)

/-- An answer is formed from the registers and takes the place of the last one (R44). -/
theorem State.answer_update_hostAnswer (a : HostAccess) : State.answer a { s with hostAnswer := x } = s.answer a := by
  cases a <;> rfl

theorem hostAccess_update_hostAnswer (a : HostAccess) : hostAccess a { s with hostAnswer := x } = hostAccess a s := by
  cases a <;> simp only [hostAccess, State.answer_update_hostAnswer]

/-- With an access or a reset in it, an event overwrites the last answer before anything could read it. -/
theorem handle_update_hostAnswer {e : Event} (he : ∀ q, e ≠ .seq q) :
    handle e { s with hostAnswer := x } = handle e s := by
  cases e with
  | rst a => rfl
  | host a => simp only [handle, hostAccess_update_hostAnswer]; rfl
  | seq q => exact absurd rfl (he q)
  | edge a q => simp only [handle, coincide, hostAccess_update_hostAnswer]; rfl

end LastAnswer

theorem seqEvent_keeps_overrun {e : SeqEvent} {s t : State} (h : seqEvent e s = .next t) : t.overrun = s.overrun := by
  have hsame : t = { t with hostAnswer := s.hostAnswer, overrun := s.overrun } :=
    Host.Outcome.next.inj (h.symm.trans (seqEvent_update_host s.hostAnswer s.overrun h))
  rw [hsame]

theorem handle_seq_eq_next_iff {q : SeqEvent} {s t : State} :
    handle (.seq q) s = .next t ↔ s.codesLegal = true ∧ seqEvent q s = .next t := by
  by_cases hl : s.codesLegal = true <;> simp [handle, hl]

/-- An event of the sequencer's side leaves the last answer where it is and does the same beside any. -/
theorem handle_seq_update_hostAnswer {q : SeqEvent} {s t : State} (x : Option HostAnswer)
    (h : handle (.seq q) s = .next t) :
    handle (.seq q) { s with hostAnswer := x } = .next { t with hostAnswer := x } := by
  obtain ⟨hl, hq⟩ := handle_seq_eq_next_iff.1 h
  refine handle_seq_eq_next_iff.2 ⟨hl, (seqEvent_update_host x s.overrun hq).trans ?_⟩
  rw [seqEvent_keeps_overrun hq]

/-- Settles O7: an access or a reset overwrites the last answer, and the sequencer's side does not read it. -/
theorem hostAnswerNeverInfluencesTheBlock : Obligations.HostAnswerNeverInfluencesTheBlock := by
  intro s t x e h
  by_cases hseq : ∃ q, e = .seq q
  · obtain ⟨q, rfl⟩ := hseq
    exact ⟨_, handle_seq_update_hostAnswer x h, rfl, fun hpart => absurd rfl hpart⟩
  · exact ⟨t, (handle_update_hostAnswer s x (not_exists.1 hseq)).trans h, rfl, fun _ => rfl⟩

end Sys2Proof.Machine
end

section
/-! Proofs of the family `30_encoding`: the fields of a command word (R61), decoding and encoding (R62 to R69), the
assembler (R70) and the script's command line (R72). -/

namespace Sys2Proof.Machine

/-! ### The fields of a command word -/

/-- A word is its four fields side by side (R61). -/
theorem append_fields (w : Word) : rsvdOf w ++ (dataOf w ++ (addrOf w ++ opcOf w)) = w := by
  have hlow : addrOf w ++ opcOf w = w.extractLsb' 0 16 := BitVec.extractLsb'_append_extractLsb'_eq_extractLsb' rfl
  have hmid : dataOf w ++ w.extractLsb' 0 16 = w.extractLsb' 0 24 :=
    BitVec.extractLsb'_append_extractLsb'_eq_extractLsb' rfl
  rw [hlow, hmid]
  exact BitVec.extractLsb'_append_extractLsb'

theorem word_eq_iff {w u : Word} :
    w = u ↔ opcOf w = opcOf u ∧ addrOf w = addrOf u ∧ dataOf w = dataOf u ∧ rsvdOf w = rsvdOf u := by
  refine ⟨fun h => h ▸ ⟨rfl, rfl, rfl, rfl⟩, fun ⟨hopc, haddr, hdata, hrsvd⟩ => ?_⟩
  rw [← append_fields w, ← append_fields u, hopc, haddr, hdata, hrsvd]

/-- The mask of `SETREG` covers `OPC` and `RSVD` whole, and no bit of the operands (R64). -/
theorem and_setregMask_eq_iff (w : Word) :
    w &&& 0xFF0000FF#32 = 0x00000002#32 ↔ opcOf w = 0x02 ∧ rsvdOf w = 0 := by
  have hopc : opcOf (w &&& 0xFF0000FF#32) = opcOf w := BitVec.extractLsb'_and.trans BitVec.and_allOnes
  have haddr : addrOf (w &&& 0xFF0000FF#32) = 0 := BitVec.extractLsb'_and.trans BitVec.and_zero
  have hdata : dataOf (w &&& 0xFF0000FF#32) = 0 := BitVec.extractLsb'_and.trans BitVec.and_zero
  have hrsvd : rsvdOf (w &&& 0xFF0000FF#32) = rsvdOf w := BitVec.extractLsb'_and.trans BitVec.and_allOnes
  rw [word_eq_iff, hopc, haddr, hdata, hrsvd]
  exact ⟨fun ⟨h2, _, _, h0⟩ => ⟨h2, h0⟩, fun ⟨h2, h0⟩ => ⟨h2, rfl, rfl, h0⟩⟩

theorem opcOf_rsvdOf_encode_setreg (addr value : Byte) :
    opcOf (encode (.setreg addr value)) = 0x02 ∧ rsvdOf (encode (.setreg addr value)) = 0 :=
  (and_setregMask_eq_iff _).1 (encode_setreg_and_mask addr value)

/-- The words of `SETREG`, field by field (R64). -/
theorem encode_setreg_eq_iff {addr value : Byte} {w : Word} :
    encode (.setreg addr value) = w ↔ opcOf w = 0x02 ∧ rsvdOf w = 0 ∧ addrOf w = addr ∧ dataOf w = value := by
  obtain ⟨hopc, hrsvd⟩ := opcOf_rsvdOf_encode_setreg addr value
  rw [eq_comm, word_eq_iff, hopc, hrsvd, addrOf_encode_setreg, dataOf_encode_setreg]
  tauto

/-- The word of `MEASURE` has every bit above its opcode clear (R63). -/
theorem eq_measureWord_iff (w : Word) : w = 0x00000001#32 ↔ opcOf w = 0x01 ∧ w.extractLsb' 8 24 = 0 := by
  refine ⟨fun h => h ▸ ⟨rfl, rfl⟩, fun ⟨hopc, hhigh⟩ => ?_⟩
  have hw : w.extractLsb' 8 24 ++ opcOf w = w := BitVec.extractLsb'_append_extractLsb'
  rw [← hw, hopc, hhigh]
  rfl

/-! ### Decoding -/

/-- Everything `decode` can answer (R69). -/
theorem decode_cases (w : Word) :
    (w = encode .measure ∧ decode w = .command .measure) ∨
    (w = encode (.setreg (addrOf w) (dataOf w)) ∧ decode w = .command (.setreg (addrOf w) (dataOf w))) ∨
    (w ≠ 0x00000001#32 ∧ ¬ (opcOf w = 0x02 ∧ rsvdOf w = 0) ∧ decode w = .illegal (whyIllegal w)) := by
  rw [← and_setregMask_eq_iff]
  unfold decode
  split
  · next hmeasure => exact .inl ⟨hmeasure, rfl⟩
  · next hmeasure =>
    split
    · next hmask =>
      obtain ⟨hopc, hrsvd⟩ := (and_setregMask_eq_iff w).1 hmask
      exact .inr (.inl ⟨(encode_setreg_eq_iff.2 ⟨hopc, hrsvd, rfl, rfl⟩).symm, rfl⟩)
    · next hmask => exact .inr (.inr ⟨hmeasure, hmask, rfl⟩)

/-- No bit of a command's word is free (R69). -/
theorem encode_of_decode {w : Word} {i : Instr} (h : decode w = .command i) : encode i = w := by
  rcases decode_cases w with ⟨hw, hd⟩ | ⟨hw, hd⟩ | ⟨-, -, hd⟩ <;> rw [hd] at h <;> cases h
  · exact hw.symm
  · exact hw.symm

theorem decode_eq_command_iff {w : Word} {i : Instr} : decode w = .command i ↔ encode i = w :=
  ⟨encode_of_decode, fun h => h ▸ decode_encode i⟩

theorem encode_injective : Function.Injective encode := fun i _ h =>
  Decoded.command.inj ((decode_encode i).symm.trans (decode_eq_command_iff.2 h.symm))

theorem exists_decode_eq_setreg_iff (w : Word) :
    (∃ addr value : Byte, decode w = .command (.setreg addr value)) ↔ opcOf w = 0x02 ∧ rsvdOf w = 0 := by
  simp [decode_eq_command_iff, encode_setreg_eq_iff]

/-- A word is illegal when it is neither command (R66). -/
theorem exists_decode_eq_illegal_iff (w : Word) :
    (∃ why, decode w = .illegal why) ↔ w ≠ 0x00000001#32 ∧ ¬ (opcOf w = 0x02 ∧ rsvdOf w = 0) := by
  refine ⟨fun ⟨why, hwhy⟩ => ?_, fun ⟨hmeasure, hsetreg⟩ => ?_⟩
  · rcases decode_cases w with ⟨-, hd⟩ | ⟨-, hd⟩ | ⟨hmeasure, hsetreg, -⟩
    · cases hd.symm.trans hwhy
    · cases hd.symm.trans hwhy
    · exact ⟨hmeasure, hsetreg⟩
  · rw [decode, if_neg hmeasure, if_neg (mt (and_setregMask_eq_iff w).1 hsetreg)]
    exact ⟨_, rfl⟩

/-- Settles O8: the two directions of `decode_eq_command_iff`. -/
theorem decodeAndEncodeAgree : Obligations.DecodeAndEncodeAgree :=
  ⟨decode_encode, fun _ _ => encode_of_decode⟩

/-- Settles O10: the one word, by fields and by its full mask. -/
theorem measureIsOneWord : Obligations.MeasureIsOneWord := by
  intro w
  have hword : decode w = .command .measure ↔ w = 0x00000001#32 := decode_eq_command_iff.trans eq_comm
  refine ⟨hword, hword.trans word_eq_iff, hword.trans ?_⟩
  have hmask : w &&& 0xFFFFFFFF#32 = w := BitVec.and_allOnes
  rw [hmask]

/-- Settles O13, by evaluation of the table. -/
theorem decodesTheListedWords : Obligations.DecodesTheListedWords := by
  unfold Obligations.DecodesTheListedWords
  decide

/-! ### The number of commands -/

/-- The commands are `1 + 2^16`: `MEASURE`, and a `SETREG` for every address and value (R62). -/
theorem exists_finset_all_instrs : ∃ instrs : Finset Instr, (∀ i, i ∈ instrs) ∧ instrs.card = 1 + 2 ^ 16 := by
  have hinj : Function.Injective fun operands : Byte × Byte => Instr.setreg operands.1 operands.2 := by
    rintro ⟨addr, value⟩ ⟨addr', value'⟩ h
    cases h
    rfl
  refine ⟨insert .measure (Finset.univ.image fun operands : Byte × Byte => .setreg operands.1 operands.2),
    fun i => by cases i <;> simp, ?_⟩
  rw [Finset.card_insert_of_notMem (by simp), Finset.card_image_of_injective _ hinj, Finset.card_univ,
    Fintype.card_prod, Fintype.card_congr BitVec.equivFin.toEquiv, Fintype.card_fin]
  norm_num

theorem decode_isCommand_iff (w : Word) : (decode w).isCommand = true ↔ ∃ i, encode i = w := by
  simp only [← decode_eq_command_iff]
  cases decode w <;> simp [Decoded.isCommand]

/-- The words that decode to a command, as numbers, are the encodings of all commands. -/
theorem filter_isCommand {instrs : Finset Instr} (hall : ∀ i, i ∈ instrs) :
    (Finset.range (2 ^ 32)).filter (fun n => (decode (BitVec.ofNat 32 n)).isCommand = true) =
      instrs.image fun i => (encode i).toNat := by
  ext n
  simp only [Finset.mem_filter, Finset.mem_range, Finset.mem_image, decode_isCommand_iff]
  constructor
  · rintro ⟨hn, i, hi⟩
    have hword : (encode i).toNat = n % 2 ^ 32 := (congrArg BitVec.toNat hi).trans (BitVec.toNat_ofNat n 32)
    exact ⟨i, hall i, hword.trans (Nat.mod_eq_of_lt hn)⟩
  · rintro ⟨i, -, rfl⟩
    exact ⟨(encode i).isLt, i, by rw [BitVec.ofNat_toNat, BitVec.setWidth_eq]⟩

/-- Settles O9: the words are counted by the commands they encode. -/
theorem decodeCountsItsCommands : Obligations.DecodeCountsItsCommands := by
  have hinj : Function.Injective fun i => (encode i).toNat :=
    fun _ _ h => encode_injective (BitVec.eq_of_toNat_eq h)
  obtain ⟨instrs, hall, hcard⟩ := exists_finset_all_instrs
  rw [Obligations.DecodeCountsItsCommands, filter_isCommand hall, Finset.card_image_of_injective _ hinj, hcard]

/-! ### What the accepted word does -/

/-- A `SETREG` outside the writable range is rejected at acceptance (R49, R86). -/
theorem commandWrite_setreg_guarded {s : State} (hst : s.st = .idle) {addr : Byte} (haddr : ¬ addr ≤ 0x02)
    (value : Byte) :
    commandWrite (encode (.setreg addr value)) s =
      .next ((s.clearRecord.latch addr value).abort errInvalidArgument stageDecode) := by
  rw [commandWrite_of_command (decode_encode _), exec, execSetreg, accept_of_idle hst, setregAccept,
    if_neg (mt (writable_iff addr).1 haddr)]

/-- Settles O11: the fields, the mask and the guard. -/
theorem setregIsOpcodeTwoWithReservedZero : Obligations.SetregIsOpcodeTwoWithReservedZero := by
  refine ⟨fun w addr value => ?fields, fun w => ?mask, fun s addr value hst haddr => ?guarded⟩
  case fields => exact decode_eq_command_iff.trans encode_setreg_eq_iff
  case mask => exact (exists_decode_eq_setreg_iff w).trans (and_setregMask_eq_iff w).symm
  case guarded => exact ⟨_, commandWrite_setreg_guarded hst (BitVec.not_le.2 haddr) value, rfl, rfl, rfl⟩

/-- The opcodes of no command (R62). -/
theorem opcode_unassigned_iff (opc : Byte) : opc = 0x00 ∨ 0x03 ≤ opc ↔ opc ≠ 0x01 ∧ opc ≠ 0x02 := by
  revert opc
  decide

/-- R66's list, opcode by opcode. -/
theorem illegal_cases_iff (w : Word) :
    (∃ why, decode w = .illegal why) ↔
      ((opcOf w = 0x00 ∨ 0x03 ≤ opcOf w) ∨ (opcOf w = 0x01 ∧ w.extractLsb' 8 24 ≠ 0) ∨
        (opcOf w = 0x02 ∧ rsvdOf w ≠ 0)) := by
  rw [exists_decode_eq_illegal_iff, Ne, eq_measureWord_iff, opcode_unassigned_iff]
  have hdisjoint : opcOf w = 0x01 → opcOf w ≠ 0x02 := fun h => h ▸ by decide
  tauto

/-- Settles O12: the cases of R66, and the abort of R85. -/
theorem illegalWordsAreTheThreeCases : Obligations.IllegalWordsAreTheThreeCases := by
  refine ⟨illegal_cases_iff, fun w why s hw hst => ⟨illegalAccept s.clearRecord, ?_, rfl, rfl, rfl, rfl, rfl, rfl, rfl⟩⟩
  rw [commandWrite_of_illegal hw, execIllegal, accept_of_idle hst]

/-! ### The assembler and the script -/

theorem AsmCommand.wellFormed_setreg_iff (addr value : Nat) :
    (AsmCommand.setreg addr value).wellFormed = true ↔ addr ≤ 255 ∧ value ≤ 255 := by
  simp [AsmCommand.wellFormed]

theorem assemble_setreg_of_le {addr value : Nat} (haddr : addr ≤ 255) (hvalue : value ≤ 255) :
    assemble (.setreg addr value) = .ok (encode (.setreg (BitVec.ofNat 8 addr) (BitVec.ofNat 8 value))) :=
  if_pos ((AsmCommand.wellFormed_setreg_iff addr value).2 ⟨haddr, hvalue⟩)

theorem assemble_setreg_of_lt {addr value : Nat} (h : 255 < addr ∨ 255 < value) :
    assemble (.setreg addr value) = .error .operandOutOfRange :=
  if_neg (mt (AsmCommand.wellFormed_setreg_iff addr value).1 (by omega))

/-- A number up to 255 is a byte as it stands. -/
theorem toNat_byte_ofNat {n : Nat} (h : n ≤ 255) : (BitVec.ofNat 8 n).toNat = n :=
  (BitVec.toNat_ofNat n 8).trans (Nat.mod_eq_of_lt (Nat.lt_succ_of_le h))

/-- Settles O14: the word assembled from operands in range decodes to the bytes of the same numbers. -/
theorem assemblerTruncatesNothing : Obligations.AssemblerTruncatesNothing :=
  ⟨rfl, fun _ _ =>
    ⟨fun ⟨haddr, hvalue⟩ => ⟨_, _, _, assemble_setreg_of_le haddr hvalue, decode_encode _, toNat_byte_ofNat haddr,
      toNat_byte_ofNat hvalue⟩, assemble_setreg_of_lt⟩⟩

/-- Settles O50: both lines put the same event to the machine. -/
theorem scriptCommandIsAHostWrite : Obligations.ScriptCommandIsAHostWrite := by
  intro reads c w s hw
  simp only [runLine, hw, commandEvent]

end Sys2Proof.Machine
end

section
/-! Proofs of the family `40_register_io`: the acceptance of a command (R83 to R86), the answer to the outstanding
request (R76 to R78, R87, R108, R112), and what they give for the whole machine (R103, R131). -/

namespace Sys2Proof.Machine

/-! ### The acceptance of a command -/

/-- While `BUSY` a command word is not decoded (R83). -/
theorem commandWrite_of_busy (w : Word) {s : State} (h : s.st ≠ .idle) : commandWrite w s = .next s.setOverrun :=
  if_pos ((State.busy_iff s).2 h)

/-- Settles O19: at the host access, the command write and `exec`. -/
theorem busyWriteSetsOverrunOnly : Obligations.BusyWriteSetsOverrunOnly := fun s w hst =>
  ⟨(hostAccess_command w s).trans (commandWrite_of_busy w hst), commandWrite_of_busy w hst,
    fun i => exec_of_busy i hst⟩

/-- An abort at acceptance leaves `st` at `IDLE`, where it was (R85, R86). -/
theorem State.abort_of_idle {s : State} (h : s.st = .idle) (code stage : BitVec 4) :
    s.abort code stage = { s with done := true, err := true, errcode := code, errstage := stage } := by
  rw [State.abort, ← h]

theorem exec_setreg_of_idle {s : State} (h : s.st = .idle) (addr value : Byte) :
    exec (.setreg addr value) s = .next (setregAccept addr value s.clearRecord) :=
  congrArg _ (accept_of_idle h)

/-- A writable address is latched and written (R86). -/
theorem setregAccept_of_writable {addr : Byte} (h : addr ≤ 0x02) (value : Byte) (s : State) :
    setregAccept addr value s =
      State.issue (txnWrite s.cfg.devAddr addr value) { s.latch addr value with st := .setwr } :=
  if_pos ((writable_iff addr).2 h)

/-- Any other address is latched and rejected (R86). -/
theorem setregAccept_of_guarded {addr : Byte} (h : ¬ addr ≤ 0x02) (value : Byte) (s : State) :
    setregAccept addr value s = (s.latch addr value).abort errInvalidArgument stageDecode :=
  if_neg (mt (writable_iff addr).1 h)

/-- Settles O17. -/
theorem setregIssuesItsWrite : Obligations.SetregIssuesItsWrite := by
  intro s addr value hst haddr
  have hle : addr ≤ 0x02 := by rcases haddr with rfl | rfl | rfl <;> decide
  rw [exec_setreg_of_idle hst, setregAccept_of_writable hle]
  rfl

/-- Settles O18. -/
theorem setregGuardRejectsTheRest : Obligations.SetregGuardRejectsTheRest := by
  intro s addr value hst haddr
  have hgt : ¬ addr ≤ 0x02 := BitVec.not_le.2 haddr
  rw [exec_setreg_of_idle hst, setregAccept_of_guarded hgt,
    State.abort_of_idle (s := s.clearRecord.latch addr value) hst]
  rfl

theorem commandWrite_illegal_of_idle {s : State} (hst : s.st = .idle) {w : Word} {why : IllegalWord}
    (hw : decode w = .illegal why) :
    commandWrite w s = .next (s.clearRecord.abort errIllegalCommand stageDecode) := by
  rw [commandWrite_of_illegal hw, execIllegal, accept_of_idle hst, illegalAccept]

/-- `STATUS` after an illegal word: `VALID` is the one bit left to the state (R35, R85). -/
theorem State.statusWord_illegal (s : State) :
    (s.clearRecord.abort errIllegalCommand stageDecode).statusWord =
      if s.valid then 0x0000140E#32 else 0x00001406#32 := by
  have hfields : (s.clearRecord.abort errIllegalCommand stageDecode).statusWord =
      0#16 ++ stageDecode ++ errIllegalCommand ++ 0#3 ++ BitVec.ofBool false ++ BitVec.ofBool s.valid ++
        BitVec.ofBool true ++ BitVec.ofBool true ++ BitVec.ofBool false := rfl
  rw [hfields]
  cases s.valid <;> rfl

/-- Settles O20: the abort of R85, and the illegal word 0x00000000 of its example. -/
theorem illegalCommandRecordsItself : Obligations.IllegalCommandRecordsItself := by
  refine ⟨fun s w why hst hw => ?_, fun s hst => ⟨_, commandWrite_illegal_of_idle hst rfl, s.statusWord_illegal⟩⟩
  rw [commandWrite_illegal_of_idle hst hw, State.abort_of_idle (s := s.clearRecord) hst]
  rfl

/-! ### The answer to the outstanding request -/

/-- Settles O27. -/
theorem strayResponseIsIgnored : Obligations.StrayResponseIsIgnored := by
  intro s r hq
  rw [seqEvent, onResponse, hq]

theorem Response.outcome_of_ok {r : Response} (h : r.ok = true) (n : Nat) :
    r.outcome n = .ok ((List.range n).map r.byte) := if_pos h

theorem Response.outcome_of_fail {r : Response} (h : r.ok = false) (n : Nat) : r.outcome n = .fail :=
  if_neg (Bool.eq_false_iff.1 h)

theorem onTick_of_delay {s : State} (h : s.st = .delay) : onTick s = delayTick s := by rw [onTick, h]

theorem onTick_of_comp {s : State} (h : s.st = .comp) : onTick s = compTick s := by rw [onTick, h]

/-- The converse of `seqEvent_move`: every move of `s` is what its event does. -/
theorem SeqMove.seqEvent_eq {s t : State} {e : SeqEvent} (m : SeqMove s e t) : seqEvent e s = .next t := by
  cases m with
  | count hst hw => exact congrArg _ ((onTick_of_delay hst).trans (if_pos hw))
  | waitOver hst hw => exact congrArg _ ((onTick_of_delay hst).trans (if_neg (not_not.2 hw)))
  | compute hst => exact congrArg _ (onTick_of_comp hst)
  | noTick hdelay hcomp =>
    rcases onTick_cases s with ⟨hst, -⟩ | ⟨hst, -⟩ | ⟨-, -, hsame⟩
    · exact absurd hst hdelay
    · exact absurd hst hcomp
    · exact congrArg _ hsame
  | taken => rfl
  | stray hq => exact strayResponseIsIgnored s _ hq
  | coefOk hst hq hr | convOk hst hq hr | adcOk hst hq hr | setregOk hst hq hr =>
    rw [seqEvent, onResponse, hq, hst]
    exact congrArg _ (if_pos hr)
  | failed hrow hq hr =>
    have hno := Bool.eq_false_iff.1 hr
    rw [seqEvent, onResponse, hq]
    rcases (SeqState.isTransaction_iff _).1 (failureRow_eq_some hrow).2 with hst | hst | hst | hst <;>
      rw [hst] at hrow ⊢ <;> cases hrow <;> exact congrArg _ (if_neg hno)

/-- A failed transaction takes the row of its state, whatever it was asked for (R82, R108). -/
theorem seqEvent_response_failed {s : State} {q : Request} {r : Response} {code stage : BitVec 4}
    (hrow : failureRow s.st = some (code, stage)) (hq : s.req = some q) (hr : r.ok = false) :
    seqEvent (.response r) s = .next ((s.settle .fail).abort code stage) := by
  rw [(SeqMove.failed hrow hq hr).seqEvent_eq, Response.outcome_of_fail hr]

/-- The rows of failed transactions, one for each transaction state (R108). -/
theorem failureRow_cases {st : SeqState} (h : st.isTransaction = true) :
    ∃ code stage, failureRow st = some (code, stage) ∧
      ((code = 1 ∧ stage = 2 ∧ st = .coef) ∨ (code = 2 ∧ stage = 3 ∧ st = .conv) ∨
        (code = 1 ∧ stage = 4 ∧ st = .adc) ∨ (code = 2 ∧ stage = 5 ∧ st = .setwr)) := by
  cases st with
  | coef => exact ⟨_, _, rfl, .inl ⟨rfl, rfl, rfl⟩⟩
  | conv => exact ⟨_, _, rfl, .inr (.inl ⟨rfl, rfl, rfl⟩)⟩
  | adc => exact ⟨_, _, rfl, .inr (.inr (.inl ⟨rfl, rfl, rfl⟩))⟩
  | setwr => exact ⟨_, _, rfl, .inr (.inr (.inr ⟨rfl, rfl, rfl⟩))⟩
  | idle | delay | comp | unused => cases h

/-- Settles O28: the move `failed`, with the row of the state. -/
theorem failedTransactionAborts : Obligations.FailedTransactionAborts := by
  intro s q r hst hq hr
  obtain ⟨code, stage, hrow, hcases⟩ := failureRow_cases hst
  exact ⟨code, stage, (failureRow_eq_some hrow).1, hcases, seqEvent_response_failed hrow hq hr⟩

/-- Settles O26: the moves `setregOk` and `failed`. -/
theorem setregResponseEndsTheCommand : Obligations.SetregResponseEndsTheCommand := by
  intro s q r hst hq
  cases hr : r.ok with
  | true =>
    rw [if_pos rfl, (SeqMove.setregOk hst hq hr).seqEvent_eq, Response.outcome_of_ok hr]
    rfl
  | false =>
    rw [if_neg Bool.false_ne_true]
    exact seqEvent_response_failed (by rw [hst]; rfl) hq hr

/-! ### No stop from the invariant -/

/-- The codes of R108 are within the bounds of I8. -/
theorem errorPairs_le : ∀ row ∈ errorPairs, row.1 ≤ 4 ∧ row.2 ≤ 5 := by simp [errorPairs]

theorem State.Inv.codesLegal {s : State} (h : s.Inv) : s.codesLegal = true := by
  have hcodes : s.errcode ≤ 4 ∧ s.errstage ≤ 5 := by
    have hsound := h.recordSound
    rw [State.errorRecordSound] at hsound
    split at hsound
    · exact errorPairs_le _ hsound
    · rw [hsound.1, hsound.2]; decide
  exact s.codesLegal_iff.2 ⟨h.stUsed, hcodes⟩

/-- What is outstanding is answered in a transaction state, so that a handler is there to take it (R17, R76). -/
theorem seqEvent_completes (e : SeqEvent) {s : State} (h : s.Inv) : Completes (seqEvent e s) := by
  cases e with
  | tick | ready => exact ⟨_, rfl⟩
  | response r =>
    cases hq : s.req with
    | none => exact ⟨s, strayResponseIsIgnored s r hq⟩
    | some q =>
      have hst : s.st.isTransaction = true := by
        by_contra hno
        rw [h.req_eq_none (Bool.eq_false_iff.2 hno)] at hq
        cases hq
      rw [seqEvent, onResponse, hq]
      rcases (SeqState.isTransaction_iff _).1 hst with hst | hst | hst | hst <;> rw [hst] <;> exact ⟨_, rfl⟩

theorem coincide_completes (a : HostAccess) (e : SeqEvent) {s : State} (h : s.Inv) : Completes (coincide a e s) := by
  obtain ⟨t, ht⟩ := hostAccess_completes a s
  have hinv : t.Inv := handle_keeps_inv (e := .host a) h ((if_pos h.codesLegal).trans ht)
  rw [coincide, ht]
  by_cases hbusy : s.busy = true
  · obtain ⟨u, hu⟩ := seqEvent_completes e hinv
    exact ⟨u, (if_pos hbusy).trans hu⟩
  · exact ⟨t, if_neg hbusy⟩

theorem handle_completes (e : Event) {s : State} (h : s.Inv) : Completes (handle e s) := by
  have hl := h.codesLegal
  cases e with
  | rst a => exact ⟨_, rfl⟩
  | host a => rw [handle, if_pos hl]; exact hostAccess_completes a s
  | seq e => rw [handle, if_pos hl]; exact seqEvent_completes e h
  | edge a e => rw [handle, if_pos hl]; exact coincide_completes a e h

/-- Settles O40: the taking of the event is invisible to the invariant, and every event is handled. -/
theorem invariantStatesNeverStop : Obligations.InvariantStatesNeverStop := fun s h =>
  ⟨handle_completes s.nextEvent (h.update_host s.hostAnswer s.overrun s.inputs.tail), fun e => handle_completes e h⟩

/-! ### The run of a `SETREG` -/

/-- The step that accepts a `SETREG` (R84, R86). -/
theorem step_of_setreg {s : State} {addr value : Byte} {rest : List Event} (hst : s.st = .idle)
    (hl : s.codesLegal = true) (hin : s.inputs = commandEvent (encode (.setreg addr value)) :: rest) :
    step s = .next (setregAccept addr value
      (State.clearRecord { s with inputs := rest, hostAnswer := some (.written false) })) := by
  rw [step_of_command hl hin, commandWrite_of_command (decode_encode _)]
  exact exec_setreg_of_idle (s := { s with inputs := rest, hostAnswer := some (.written false) }) hst addr value

/-- The block once a `SETREG` with a writable address is accepted, its write presented (R86). -/
def State.setregIssued (addr value : Byte) (rest : List Event) (s : State) : State :=
  State.issue (txnWrite s.cfg.devAddr addr value)
    { s.clearRecord.latch addr value with st := .setwr, inputs := rest, hostAnswer := some (.written false) }

theorem step_setreg_of_writable {s : State} {addr value : Byte} {rest : List Event} (hst : s.st = .idle)
    (hl : s.codesLegal = true) (hin : s.inputs = commandEvent (encode (.setreg addr value)) :: rest)
    (haddr : addr ≤ 0x02) : step s = .next (s.setregIssued addr value rest) := by
  rw [step_of_setreg hst hl hin, setregAccept_of_writable haddr]
  rfl

/-- The answer to the write of a `SETREG` just accepted: the move `setregOk`, or `failed` (R87). -/
theorem step_setregIssued (s : State) (addr value : Byte) (r : Response) (rest : List Event) :
    step (s.setregIssued addr value (.seq (.response r) :: rest)) =
      .next (setregResponse r ((s.setregIssued addr value rest).settle (r.outcome 0))) := by
  rw [step_of_seq (rest := rest) (by rfl) rfl]
  rfl

/-- Settles O49: by the guard, and by the answer to the write. -/
theorem setregRunsToItsEnd : Obligations.SetregRunsToItsEnd := by
  intro s addr value r rest hst hl hin
  by_cases haddr : addr ≤ 0x02
  · simp only [if_pos haddr]
    have hrun := RunsTo.head (step_setreg_of_writable hst hl hin haddr)
      (.single (step_setregIssued s addr value r rest))
    cases hr : r.ok with
    | true =>
      rw [setregResponse, if_pos hr, Response.outcome_of_ok hr] at hrun
      have herr : false = false ↔ addr ≤ 0x02 ∧ true = true := iff_of_true rfl ⟨haddr, rfl⟩
      exact ⟨_, ⟨hrun, rfl, List.append_assoc _ _ _, rfl, rfl⟩, ⟨rfl, rfl⟩, rfl, rfl, herr, rfl, rfl, rfl, rfl⟩
    | false =>
      rw [setregResponse, if_neg (Bool.eq_false_iff.1 hr), Response.outcome_of_fail hr] at hrun
      have herr : true = false ↔ addr ≤ 0x02 ∧ false = true := iff_of_false nofun (fun h => nomatch h.2)
      exact ⟨_, ⟨hrun, rfl, List.append_assoc _ _ _, rfl, rfl⟩, ⟨rfl, rfl⟩, rfl, rfl, herr, rfl, rfl, rfl, rfl⟩
  · simp only [if_neg haddr]
    have hstep := step_of_setreg hst hl hin
    rw [setregAccept_of_guarded haddr] at hstep
    have herr : true = false ↔ addr ≤ 0x02 ∧ r.ok = true := iff_of_false nofun (fun h => haddr h.1)
    exact ⟨_, ⟨.single hstep, rfl, rfl, rfl, rfl⟩, ⟨rfl, rfl⟩, rfl, rfl, herr, rfl, rfl, rfl, rfl⟩

end Sys2Proof.Machine
end

section
/-! Proofs of the family `41_signed_decode`: byte assembly (R88), the signed decode (R89), and the fields of a byte pair
(R91, R92). -/

namespace Sys2Proof.Machine

/-! ### The signed value of a pattern -/

theorem neg_two_pow_le_toSigned {w : Nat} (u : BitVec w) : -2 ^ (w - 1) ≤ toSigned u :=
  toSigned_eq_toInt u ▸ BitVec.le_toInt u

theorem toSigned_le {w : Nat} (u : BitVec w) : toSigned u ≤ 2 ^ (w - 1) - 1 :=
  toSigned_eq_toInt u ▸ BitVec.toInt_le

/-- The sign of the value is the top bit of its pattern (R89). -/
theorem toSigned_neg_iff {w : Nat} (u : BitVec w) : toSigned u < 0 ↔ u.msb = true := by
  rw [toSigned_eq_toInt, BitVec.msb_eq_toInt, decide_eq_true_iff]

/-- The pattern of the value is its sign extension (R89). The width `n` is free: in a narrower register, which R89 does
not speak of, both sides are truncated alike. -/
theorem sext_toSigned {w : Nat} (u : BitVec w) (n : Nat) : sext n (toSigned u) = u.signExtend n := by
  rw [toSigned_eq_toInt, sext, BitVec.signExtend]

/-- Settles O31: both widths are instances of the facts about every width. -/
theorem signedDecodeIsTwosComplement : Obligations.SignedDecodeIsTwosComplement := by
  refine ⟨fun u => ⟨rfl, ?lo16, ?hi16, fun n _ => sext_toSigned u n⟩,
    fun u => ⟨rfl, ?lo14, ?hi14, fun n _ => sext_toSigned u n⟩, ?corners⟩
  case lo16 | lo14 => exact neg_two_pow_le_toSigned u
  case hi16 | hi14 => exact toSigned_le u
  case corners => decide

/-! ### The fields of a byte pair -/

/-- The first byte is the high one (R88). -/
theorem be16_toNat (hi lo : Byte) : (be16 hi lo).toNat = hi.toNat * 256 + lo.toNat := by
  rw [be16, BitVec.toNat_append, ← Nat.shiftLeft_add_eq_or_of_lt lo.isLt, Nat.shiftLeft_eq]

/-- A pair without its `k` low bits is the first byte over what is left of the second. -/
theorem be16_high_bits (hi lo : Byte) {k m : Nat} (h : k + m = 8) :
    (be16 hi lo >>> k).setWidth (8 + m) = hi ++ lo.extractLsb' k m := by
  have hhi : (be16 hi lo).extractLsb' 8 8 = hi := BitVec.extractLsb'_append_eq_left
  have hlo : (be16 hi lo).extractLsb' k m = lo.extractLsb' k m := BitVec.extractLsb'_append_eq_of_add_le h.le
  calc (be16 hi lo >>> k).setWidth (8 + m)
      = (be16 hi lo).extractLsb' k (8 + m) := BitVec.setWidth_ushiftRight_eq_extractLsb
    _ = (be16 hi lo).extractLsb' 8 8 ++ (be16 hi lo).extractLsb' k m :=
        (BitVec.extractLsb'_append_extractLsb'_eq_extractLsb' h.symm).symm
    _ = hi ++ lo.extractLsb' k m := by rw [hhi, hlo]

/-- As a number, a pair without its `k` low bits is the quotient by `2 ^ k`: no bit above them is lost. -/
theorem be16_high_toNat (hi lo : Byte) {k m : Nat} (h : k + m = 8) :
    ((be16 hi lo >>> k).setWidth (8 + m)).toNat = (hi.toNat * 256 + lo.toNat) / 2 ^ k := by
  have hfits : (be16 hi lo).toNat / 2 ^ k < 2 ^ (8 + m) := by
    rw [Nat.div_lt_iff_lt_mul (Nat.two_pow_pos k), ← pow_add, show 8 + m + k = 16 by omega]
    exact (be16 hi lo).isLt
  rw [BitVec.toNat_setWidth, BitVec.toNat_ushiftRight, Nat.shiftRight_eq_div_pow, Nat.mod_eq_of_lt hfits, be16_toNat]

/-- `C12_RAW = {byte6, byte7[7:2]}` (R91). -/
theorem c12Field_eq_append (hi lo : Byte) : c12Field hi lo = hi ++ lo.extractLsb' 2 6 :=
  be16_high_bits hi lo (k := 2) (m := 6) rfl

/-- `PADC` and `TADC` are `{hi, lo[7:6]}` (R92). -/
theorem adcField_eq_append (hi lo : Byte) : adcField hi lo = hi ++ lo.extractLsb' 6 2 :=
  be16_high_bits hi lo (k := 6) (m := 2) rfl

/-- The sign of `C12_RAW` is the first byte's (R91). -/
theorem toSigned_c12Field_neg_iff (hi lo : Byte) : toSigned (c12Field hi lo) < 0 ↔ hi.getLsbD 7 = true := by
  have hmsb : (hi ++ lo.extractLsb' 2 6).msb = hi.msb := BitVec.msb_append
  rw [toSigned_neg_iff, c12Field_eq_append, hmsb, BitVec.msb_eq_getLsbD_last]

/-- Settles O32: a field is the high bits of its pair, as a number and as bits; the corner cases are evaluated. -/
theorem fieldsAreTheHighBitsOfTheirPair : Obligations.FieldsAreTheHighBitsOfTheirPair := by
  refine ⟨fun hi lo => ⟨be16_toNat hi lo, ?c12, c12Field_eq_append hi lo, toSigned_c12Field_neg_iff hi lo, ?adc,
    adcField_eq_append hi lo⟩, ?corners⟩
  case c12 => exact be16_high_toNat hi lo (k := 2) (m := 6) rfl
  case adc => exact be16_high_toNat hi lo (k := 6) (m := 2) rfl
  case corners => decide

end Sys2Proof.Machine
end

section
/-! Proofs of the family `42_measure`: the acceptance and the handlers of `MEASURE` (R95 to R100), the conversion wait
(R98), the bounds and the ties of the pressure (R102, R104), and the runs of a whole `MEASURE` (R94, R112, R113). -/

namespace Sys2Proof.Machine

/-! ### The acceptance and the handlers -/

theorem exec_measure_of_idle {s : State} (h : s.st = .idle) : exec .measure s = .next (measureAccept s.clearRecord) :=
  congrArg _ (accept_of_idle h)

/-- Settles O16. -/
theorem measureIssuesTheCoefficientRead : Obligations.MeasureIssuesTheCoefficientRead := fun _ hst =>
  exec_measure_of_idle hst

/-- The 14 bits of R91, read off the pair. -/
theorem c12Field_eq_extractLsb' (hi lo : Byte) : c12Field hi lo = (hi ++ lo).extractLsb' 2 14 :=
  BitVec.setWidth_ushiftRight_eq_extractLsb

/-- The 10 bits of R92, read off the pair. -/
theorem adcField_eq_extractLsb' (hi lo : Byte) : adcField hi lo = (hi ++ lo).extractLsb' 6 10 :=
  BitVec.setWidth_ushiftRight_eq_extractLsb

/-- The block after a good coefficient read: the raw coefficients of its bytes, and the trigger issued (R96). -/
theorem seqEvent_coefOk {s : State} {q : Request} {r : Response} (hst : s.st = .coef) (hq : s.req = some q)
    (hr : r.ok = true) :
    seqEvent (.response r) s = .next (State.issue (convRequest s.cfg.devAddr)
      { (s.settle (.ok ((List.range q.rlen).map r.byte))).captureCoef r with st := .conv }) := by
  rw [(SeqMove.coefOk hst hq hr).seqEvent_eq, Response.outcome_of_ok hr]

/-- The block after a good trigger write: the wait is loaded (R97). -/
theorem seqEvent_convOk {s : State} {q : Request} {r : Response} (hst : s.st = .conv) (hq : s.req = some q)
    (hr : r.ok = true) :
    seqEvent (.response r) s = .next { s.settle (.ok ((List.range q.rlen).map r.byte)) with
      wcnt := s.cfg.convWaitCycles, st := .delay } := by
  rw [(SeqMove.convOk hst hq hr).seqEvent_eq, Response.outcome_of_ok hr]

/-- The block after a good ADC read: the two counts of its bytes (R99). -/
theorem seqEvent_adcOk {s : State} {q : Request} {r : Response} (hst : s.st = .adc) (hq : s.req = some q)
    (hr : r.ok = true) :
    seqEvent (.response r) s = .next
      { (s.settle (.ok ((List.range q.rlen).map r.byte))).captureAdc r with st := .comp } := by
  rw [(SeqMove.adcOk hst hq hr).seqEvent_eq, Response.outcome_of_ok hr]

/-- Settles O21: the moves `coefOk` and `failed`. -/
theorem coefficientResponseCapturesAndTriggers : Obligations.CoefficientResponseCapturesAndTriggers := by
  intro s q r hst hq
  cases hr : r.ok with
  | true =>
    rw [if_pos rfl, seqEvent_coefOk hst hq hr, State.captureCoef, State.issue, c12Field_eq_extractLsb']
    simp only [State.settle, List.append_assoc]
    rfl
  | false =>
    rw [if_neg Bool.false_ne_true]
    exact seqEvent_response_failed (by rw [hst]; rfl) hq hr

/-- Settles O22: the moves `convOk` and `failed`. -/
theorem triggerResponseStartsTheWait : Obligations.TriggerResponseStartsTheWait := by
  intro s q r hst hq
  cases hr : r.ok with
  | true => exact seqEvent_convOk hst hq hr
  | false => exact seqEvent_response_failed (by rw [hst]; rfl) hq hr

/-- Settles O24: the moves `adcOk` and `failed`. -/
theorem adcResponseCapturesTheCounts : Obligations.AdcResponseCapturesTheCounts := by
  intro s q r hst hq
  cases hr : r.ok with
  | true =>
    rw [if_pos rfl, seqEvent_adcOk hst hq hr, State.captureAdc, adcField_eq_extractLsb', adcField_eq_extractLsb']
    rfl
  | false =>
    rw [if_neg Bool.false_ne_true]
    exact seqEvent_response_failed (by rw [hst]; rfl) hq hr

/-- The coefficients of `P22` are the two's-complement readings of their registers (R93, R102). -/
theorem RawInputs.p22_eq (x : RawInputs) :
    x.p22 = p22Of x.a0Raw.toInt x.b1Raw.toInt x.b2Raw.toInt x.c12Raw.toInt x.padc.toNat x.tadc.toNat := by
  simp only [RawInputs.p22, toSigned_eq_toInt]

/-- Settles O25: the move `compute`. -/
theorem compTickWritesTheResults : Obligations.CompTickWritesTheResults := by
  intro s hst
  rw [(SeqMove.compute hst).seqEvent_eq, compTick, RawInputs.pressWord, RawInputs.p22_eq]
  rfl

/-! ### The conversion wait -/

theorem onTick_of_wait {s : State} (hst : s.st = .delay) (hw : s.wcnt ≠ 0) :
    onTick s = { s with wcnt := s.wcnt - 1 } :=
  (onTick_of_delay hst).trans (if_pos hw)

/-- The block once its wait is over: nothing is left to count, and the ADC read is issued (R98). -/
def State.waited (s : State) : State := State.issue (adcRequest s.cfg.devAddr) { s with wcnt := 0, st := .adc }

theorem onTick_of_wait_over {s : State} (hst : s.st = .delay) (hw : s.wcnt = 0) : onTick s = s.waited := by
  rw [onTick_of_delay hst, delayTick, if_neg (not_not.2 hw), State.waited, ← hw]

/-- While the wait lasts, ticks only count (R98). -/
theorem onTick_iterate_of_le {s : State} (hst : s.st = .delay) (k : Nat) (hk : k ≤ s.wcnt) :
    onTick^[k] s = { s with wcnt := s.wcnt - k } := by
  induction k with
  | zero => rfl
  | succ k ih =>
    have hleft : s.wcnt - k ≠ 0 := Nat.sub_ne_zero_of_lt hk
    rw [Function.iterate_succ_apply', ih (Nat.le_of_succ_le hk),
      onTick_of_wait (s := { s with wcnt := s.wcnt - k }) hst hleft, Nat.sub_sub]

/-- The tick after the last one counted ends the wait (R98). -/
theorem onTick_iterate_wait {s : State} (hst : s.st = .delay) : onTick^[s.wcnt + 1] s = s.waited := by
  rw [Function.iterate_succ_apply', onTick_iterate_of_le hst s.wcnt le_rfl, Nat.sub_self,
    onTick_of_wait_over (s := { s with wcnt := 0 }) hst rfl]
  rfl

/-- The production constraint of R6, in the order of its two parameters. -/
theorem production_iff (c : Config) :
    c.production = true ↔ 0 < c.fclkHz ∧ 40 * c.fclkHz ≤ 1000 * c.convWaitCycles := by
  simp [Config.production, Config.wellFormed]

/-- In production the ticks of the wait last more than 40 ms (R6, R98). -/
theorem production_wait {c : Config} (h : c.production = true) :
    (40 : ℚ) / 1000 < ((c.convWaitCycles : ℚ) + 1) / (c.fclkHz : ℚ) := by
  obtain ⟨hpos, hwait⟩ := (production_iff c).1 h
  have hfclk : (0 : ℚ) < c.fclkHz := by exact_mod_cast hpos
  have hcycles : (40 : ℚ) * c.fclkHz ≤ 1000 * c.convWaitCycles := by exact_mod_cast hwait
  rw [lt_div_iff₀ hfclk]
  linarith

/-- Settles O23: the ticks that count, the tick that ends the wait, and the production constraint. -/
theorem waitLastsItsTicks : Obligations.WaitLastsItsTicks :=
  ⟨fun _ k hst hk => onTick_iterate_of_le hst k hk, fun _ hst => onTick_iterate_wait hst,
    fun _ hc => production_wait hc⟩

/-! ### The bounds and the ties of the pressure -/

/-- Settles O34: the bounds are reached where every coefficient has its extreme value and both counts are full. -/
theorem compensationFitsThirtySevenBits : Obligations.CompensationFitsThirtySevenBits := by
  refine ⟨fun x => ?bounds, ⟨⟨0x7FFF, 0x7FFF, 0x7FFF, 0x1FFF, 1023, 1023⟩, by decide⟩,
    ⟨⟨0x8000, 0x8000, 0x8000, 0x2000, 1023, 1023⟩, by decide⟩⟩
  case bounds =>
    obtain ⟨hlo, hhi⟩ := x.p22_bounds
    exact ⟨hlo, hhi, by linarith, by linarith⟩

/-- Rounding misses a quotient by exactly one half just at a tie. -/
theorem abs_div_sub_rne_eq_half_iff {num den : Int} (hden : 0 < den) :
    |(num : ℚ) / den - rne num den| = 1 / 2 ↔ 2 * (num % den) = den := by
  have hq : (den : ℚ) ≠ 0 := by exact_mod_cast hden.ne'
  have hint : |(num : ℚ) / den - rne num den| = 1 / 2 ↔ 2 * |num - den * rne num den| = den := by
    rw [abs_div_sub_rne hden, div_eq_div_iff hq two_ne_zero, one_mul, mul_comm]
    exact_mod_cast Iff.rfl
  refine hint.trans ⟨fun h => ?_, two_mul_abs_sub_mul_rne_of_tie hden⟩
  by_contra hno
  exact (two_mul_abs_sub_mul_rne_lt hden hno).ne h

/-- 6500 and 1023 share no factor, and 13000 has no more than three twos: `6500 * p` is an odd number of halves of
`1023 * 2 ^ 22` just when `p` is an odd number of `1023 * 2 ^ 19` (R104). -/
theorem pressure_tie_iff (p : Int) :
    2 * (6500 * p % (1023 * 2 ^ 22)) = 1023 * 2 ^ 22 ↔ ∃ k : Int, p = (2 * k + 1) * (1023 * 2 ^ 19) := by
  constructor
  · intro h
    have hcoprime : IsCoprime (1023 * 2 ^ 19 : Int) 1625 := Int.isCoprime_iff_gcd_eq_one.2 (by decide)
    have hsplit := Int.mul_ediv_add_emod (6500 * p) (1023 * 2 ^ 22)
    generalize 6500 * p / (1023 * 2 ^ 22) = q at hsplit
    have hhalves : 1625 * p = 1023 * 2 ^ 19 * (2 * q + 1) := by linarith
    obtain ⟨m, rfl⟩ := hcoprime.dvd_of_dvd_mul_left ⟨_, hhalves⟩
    have hodd : 1625 * m = 2 * q + 1 := by linarith
    exact ⟨q - 812 * m, by linarith⟩
  · rintro ⟨k, rfl⟩
    have hsplit : 6500 * ((2 * k + 1) * (1023 * 2 ^ 19)) = 1023 * 2 ^ 21 + 1023 * 2 ^ 22 * (1625 * k + 812) := by ring
    rw [hsplit, Int.add_mul_emod_self_left]
    norm_num

/-- Settles O36: a tie of the quotient is a tie of `P22`. -/
theorem pressureTiesAreTheOddMultiples : Obligations.PressureTiesAreTheOddMultiples := by
  intro x
  rw [exactP100_sub_pressWord, abs_div_sub_rne_eq_half_iff (by norm_num)]
  exact pressure_tie_iff x.p22

/-! ### The run of a `MEASURE` -/

/-- A step whose next event is a tick that counts (R98). -/
theorem step_of_wait {n : Nat} {s : State} {rest : List Event} (hst : s.st = .delay) (hl : s.codesLegal = true)
    (hw : s.wcnt = n + 1) (hin : s.inputs = .seq .tick :: rest) :
    step s = .next { s with wcnt := n, inputs := rest } := by
  have hcount := onTick_of_wait (s := { s with inputs := rest }) hst (by simp [hw])
  rw [step_of_seq hl hin, seqEvent, hcount]
  simp only [hw, Nat.add_sub_cancel]

/-- The ticks of a wait, placed one after another, run it to its end (R98). -/
theorem runsTo_waited {n : Nat} {s : State} {rest : List Event} (hst : s.st = .delay) (hl : s.codesLegal = true)
    (hw : s.wcnt = n) (hin : s.inputs = List.replicate (n + 1) (.seq .tick) ++ rest) :
    RunsTo (n + 1) s (State.waited { s with inputs := rest }) := by
  induction n generalizing s with
  | zero =>
    have hover := onTick_of_wait_over (s := { s with inputs := rest }) hst hw
    exact .single ((step_of_seq hl hin).trans (congrArg _ hover))
  | succ n ih => exact .head (step_of_wait hst hl hw hin) (ih hst hl rfl rfl)

/-- A `MEASURE` running in the state `x` on the registers of `s`: the record and `VALID` are clear since its acceptance
(R84, R95) and its command write stands answered, the request `q` is outstanding if there is one, `log` is what the
command has added to `txlog`, and the events `rest` are to come. -/
def State.measuring (s : State) (x : SeqState) (q : Option Request) (log : List TxEntry) (rest : List Event) : State :=
  { s with
    st := x
    done := false, err := false, valid := false, overrun := false
    errcode := 0, errstage := 0
    req := q, reqValid := q.isSome
    txlog := s.txlog ++ log
    hostAnswer := some (.written false)
    inputs := rest }

section Measuring

variable {s : State} {x : SeqState} {q : Option Request} {log : List TxEntry} {r : Response} {rest : List Event}

theorem measuring_codesLegal (hx : x ≠ .unused) : (s.measuring x q log rest).codesLegal = true :=
  (State.codesLegal_iff _).2 ⟨hx, Nat.zero_le _, Nat.zero_le _⟩

theorem step_measuring {e : SeqEvent} (hx : x ≠ .unused) :
    step (s.measuring x q log (.seq e :: rest)) = seqEvent e (s.measuring x q log rest) :=
  step_of_seq (measuring_codesLegal hx) rfl

/-- The acceptance of a `MEASURE` (R95). -/
theorem runsTo_measuring (hst : s.st = .idle) (hl : s.codesLegal = true)
    (hin : s.inputs = commandEvent 0x00000001#32 :: rest) :
    RunsTo 1 s (s.measuring .coef (some (coefRequest s.cfg.devAddr)) [.issued (coefRequest s.cfg.devAddr)] rest) := by
  have hcmd : decode 0x00000001#32 = .command .measure := decode_encode .measure
  refine .single ((step_of_command hl hin).trans ?_)
  rw [commandWrite_of_command hcmd]
  exact exec_measure_of_idle (s := { s with inputs := rest, hostAnswer := some (.written false) }) hst

/-- The coefficient read succeeds (R96). -/
theorem step_measuring_coef (hr : r.ok = true) (q : Request) :
    step (s.measuring .coef (some q) log (.seq (.response r) :: rest)) =
      .next ((s.captureCoef r).measuring .conv (some (convRequest s.cfg.devAddr))
        (log ++ [.outcome (.ok ((List.range q.rlen).map r.byte)), .issued (convRequest s.cfg.devAddr)]) rest) := by
  rw [step_measuring (by decide), seqEvent_coefOk rfl rfl hr]
  simp [State.measuring, State.issue, State.settle, State.captureCoef]

/-- The conversion trigger is acknowledged (R97). -/
theorem step_measuring_conv (hr : r.ok = true) (q : Request) :
    step (s.measuring .conv (some q) log (.seq (.response r) :: rest)) =
      .next (State.measuring { s with wcnt := s.cfg.convWaitCycles } .delay none
        (log ++ [.outcome (.ok ((List.range q.rlen).map r.byte))]) rest) := by
  rw [step_measuring (by decide), seqEvent_convOk rfl rfl hr]
  simp [State.measuring, State.settle]

/-- The wait runs to its end, and the ADC read is issued (R98). -/
theorem runsTo_measuring_adc :
    RunsTo (s.wcnt + 1) (s.measuring .delay none log (List.replicate (s.wcnt + 1) (.seq .tick) ++ rest))
      (State.measuring { s with wcnt := 0 } .adc (some (adcRequest s.cfg.devAddr))
        (log ++ [.issued (adcRequest s.cfg.devAddr)]) rest) := by
  have hwait := runsTo_waited (s := s.measuring .delay none log _) rfl (measuring_codesLegal (by decide)) rfl
    (rfl : _ = List.replicate (s.wcnt + 1) (.seq .tick) ++ rest)
  simpa [State.waited, State.measuring, State.issue] using hwait

/-- The ADC read succeeds (R99). -/
theorem step_measuring_adc (hr : r.ok = true) (q : Request) :
    step (s.measuring .adc (some q) log (.seq (.response r) :: rest)) =
      .next ((s.captureAdc r).measuring .comp none
        (log ++ [.outcome (.ok ((List.range q.rlen).map r.byte))]) rest) := by
  rw [step_measuring (by decide), seqEvent_adcOk rfl rfl hr]
  simp [State.measuring, State.settle, State.captureAdc]

/-- The results are computed (R100). -/
theorem step_measuring_comp :
    step (s.measuring .comp none log (.seq .tick :: rest)) = .next (compTick (s.measuring .comp none log rest)) :=
  (step_measuring (by decide)).trans (SeqMove.compute rfl).seqEvent_eq

/-- A transaction fails, and the command ends with the row of its state (R108, R112). -/
theorem step_measuring_failed {q : Request} {code stage : BitVec 4} (hrow : failureRow x = some (code, stage))
    (hr : r.ok = false) :
    step (s.measuring x (some q) log (.seq (.response r) :: rest)) =
      .next ((State.settle .fail (s.measuring x (some q) log rest)).abort code stage) := by
  have hx : x ≠ .unused := by rintro rfl; cases hrow
  rw [step_measuring hx]
  exact seqEvent_response_failed hrow rfl hr

/-- `STATUS` after a `MEASURE` that failed with a code and a stage: `ERR` and `DONE` are set, `VALID` is not (R35). -/
theorem statusWord_measuring_failed (code stage : BitVec 4) :
    ((State.settle .fail (s.measuring x q log rest)).abort code stage).statusWord =
      0#16 ++ stage ++ code ++ 0#3 ++ BitVec.ofBool false ++ BitVec.ofBool false ++ BitVec.ofBool true ++
        BitVec.ofBool true ++ BitVec.ofBool false := rfl

/-- `STATUS` after a `MEASURE` that succeeded: `VALID` and `DONE` are set (R35). -/
theorem statusWord_compTick_measuring : (compTick (s.measuring x q log rest)).statusWord = 0x0000000A#32 := by
  have hfields : (compTick (s.measuring x q log rest)).statusWord =
      0#16 ++ 0#4 ++ 0#4 ++ 0#3 ++ BitVec.ofBool false ++ BitVec.ofBool true ++ BitVec.ofBool false ++
        BitVec.ofBool true ++ BitVec.ofBool false := rfl
  rw [hfields]
  rfl

end Measuring

/-- What a `MEASURE` has added to `txlog` when its trigger is out (R95, R96). -/
def triggerLog (dev : DevAddr) (rc : Response) : List TxEntry :=
  [.issued (coefRequest dev), .outcome (.ok ((List.range 8).map rc.byte)), .issued (convRequest dev)]

/-- What a `MEASURE` has added to `txlog` when its ADC read is out (R97, R98). -/
def adcLog (dev : DevAddr) (rc : Response) : List TxEntry :=
  triggerLog dev rc ++ [.outcome (.ok []), .issued (adcRequest dev)]

section MeasureRun

variable {s : State} {rc rv : Response} {rest : List Event}

/-- From the acceptance to the conversion trigger (R95, R96). -/
theorem runsTo_trigger (hst : s.st = .idle) (hl : s.codesLegal = true) (hrc : rc.ok = true)
    (hin : s.inputs = commandEvent 0x00000001#32 :: .seq (.response rc) :: rest) :
    RunsTo 2 s ((s.captureCoef rc).measuring .conv (some (convRequest s.cfg.devAddr))
      (triggerLog s.cfg.devAddr rc) rest) :=
  (runsTo_measuring hst hl hin).trans (.single (step_measuring_coef hrc _))

/-- From the acceptance to the ADC read (R95 to R98). -/
theorem runsTo_adcRead (hst : s.st = .idle) (hl : s.codesLegal = true) (hrc : rc.ok = true) (hrv : rv.ok = true)
    (hin : s.inputs = [commandEvent 0x00000001#32, .seq (.response rc), .seq (.response rv)] ++
      List.replicate (s.cfg.convWaitCycles + 1) (.seq .tick) ++ rest) :
    RunsTo (s.cfg.convWaitCycles + 4) s (State.measuring { s.captureCoef rc with wcnt := 0 } .adc
      (some (adcRequest s.cfg.devAddr)) (adcLog s.cfg.devAddr rc) rest) := by
  have htrigger := runsTo_trigger hst hl hrc hin
  have hacknowledged := htrigger.trans (.single (step_measuring_conv hrv _))
  have hwait := hacknowledged.trans runsTo_measuring_adc
  rwa [Nat.add_comm] at hwait

end MeasureRun

/-- Settles O47: the run to the ADC read, its answer, and the `COMP` tick. -/
theorem measureRunsToItsResults : Obligations.MeasureRunsToItsResults := by
  intro s rc rv ra rest hst hl hrc hrv hra hin
  have hread := runsTo_adcRead hst hl hrc hrv (hin.trans (List.append_assoc _ _ _))
  have hcaptured := hread.trans (.single (step_measuring_adc hra _))
  have hrun := hcaptured.trans (.single step_measuring_comp)
  exact ⟨_, hrun, rfl, rfl, statusWord_compTick_measuring, rfl, rfl, rfl, rfl, rfl, rfl, rfl, rfl, rfl, rfl, rfl, rfl,
    rfl, rfl⟩

/-- Settles O48: the run to the failing transaction, and its abort. -/
theorem failedMeasureKeepsTheOldResults : Obligations.FailedMeasureKeepsTheOldResults := by
  refine ⟨fun s rc rv ra rest hst hl hrc hrv hra hin => ?adc, fun s rc rv rest hst hl hrc hrv hin => ?conv,
    fun s rc rest hst hl hrc hin => ?coef⟩
  case adc =>
    have hread := runsTo_adcRead hst hl hrc hrv (hin.trans (List.append_assoc _ _ _))
    have hrun := hread.trans (.single (step_measuring_failed rfl hra))
    exact ⟨_, hrun, rfl, statusWord_measuring_failed _ _, rfl, rfl, rfl, rfl, rfl, rfl, rfl, rfl⟩
  case conv =>
    have hrun := (runsTo_trigger hst hl hrc hin).trans (.single (step_measuring_failed rfl hrv))
    exact ⟨_, hrun, rfl, statusWord_measuring_failed _ _, rfl, rfl, rfl, rfl, rfl, rfl, rfl, rfl, rfl,
      List.append_assoc _ _ _⟩
  case coef =>
    have hrun := (runsTo_measuring hst hl hin).trans (.single (step_measuring_failed rfl hrc))
    exact ⟨_, hrun, rfl, statusWord_measuring_failed _ _, rfl, rfl, rfl, List.append_assoc _ _ _⟩

end Sys2Proof.Machine
end

section
/-! Proofs of the family `60_exceptions`: a host access and an event of the sequencer's side at one clock edge (R114,
D20), and the life of the error record (R115). -/

namespace Sys2Proof.Machine

/-! ### Two events at one clock edge -/

/-- While `IDLE` no tick is enabled and nothing is outstanding, and the access alone happens (D20). -/
theorem handle_edge_of_idle (a : HostAccess) (e : SeqEvent) {s : State} (hl : s.codesLegal = true)
    (hst : s.st = .idle) : handle (.edge a e) s = hostAccess a s := by
  obtain ⟨t, ht⟩ := hostAccess_completes a s
  have hbusy : ¬ s.busy = true := fun h => (State.busy_iff s).1 h hst
  rw [handle, if_pos hl, coincide, ht]
  exact if_neg hbusy

section Busy

variable {a : HostAccess} {e : SeqEvent} {s t : State}

/-- While `BUSY` the sequencer's event happens as it would alone, beside what the access leaves (D20). -/
theorem handle_edge_of_busy {x : Option HostAnswer} {o : Bool} (hl : s.codesLegal = true) (hst : s.st ≠ .idle)
    (ha : hostAccess a s = .next { s with hostAnswer := x, overrun := o }) (he : seqEvent e s = .next t) :
    handle (.edge a e) s = .next { t with hostAnswer := x, overrun := o } := by
  rw [handle, if_pos hl, coincide, ha]
  exact (if_pos ((State.busy_iff s).2 hst)).trans (seqEvent_update_host x o he)

/-- An access that is only answered adds its answer, formed before the edge, to what the sequencer's event does. -/
theorem handle_edge_of_answered (hl : s.codesLegal = true) (hst : s.st ≠ .idle)
    (ha : hostAccess a s = .next (s.answer a)) (he : seqEvent e s = .next t) :
    handle (.edge a e) s = .next { t with hostAnswer := some (s.answerTo a) } := by
  rw [handle_edge_of_busy hl hst ha he, ← seqEvent_keeps_overrun he]

end Busy

/-- A command write while `BUSY` is a legal access that sets `OVERRUN` (R44, R83). -/
theorem hostAccess_command_of_busy (w : Word) {s : State} (hst : s.st ≠ .idle) :
    hostAccess (.write 0x00 w 0b1111) s = .next { s with hostAnswer := some (.written false), overrun := true } := by
  rw [hostAccess_command, commandWrite_of_busy w (s := s.answer _) hst]
  rfl

/-- Only a legal write at 0x00 is more than answered (R44, R46). -/
theorem hostAccess_write_of_not_command (w : Word) {off : Byte} {be : BitVec 4} (h : off ≠ 0x00 ∨ be ≠ 0b1111)
    (s : State) : hostAccess (.write off w be) s = .next (s.answer (.write off w be)) :=
  if_neg fun hc => h.elim (fun hoff => hoff hc.2) (fun hbe => hbe (HostAccess.legal_write hc.1))

/-- The answer to a write says whether it was illegal (R44). -/
theorem State.answerTo_write (s : State) (off : Byte) (w : Word) (be : BitVec 4) :
    s.answerTo (.write off w be) = .written (decide (off.extractLsb' 0 2 ≠ 0 ∨ be ≠ 0b1111)) := by
  have hill := HostAccess.legal_eq_false_iff (.write off w be)
  rw [State.answerTo, HostAnswer.written.injEq, Bool.eq_iff_iff, Bool.not_eq_true', decide_eq_true_iff]
  exact hill

/-- Settles O30: while `BUSY` by what the access does alone, beside the sequencer's event; then while `IDLE`. -/
theorem coincidentEventsSeeThePreEdgeState : Obligations.CoincidentEventsSeeThePreEdgeState := by
  refine ⟨fun s t e off be hl hst he => ?read, fun s t e w hl hst he => ?command,
    fun s t e off w be hl hst he hno => ?write, fun s a e hl hst => handle_edge_of_idle a e hl hst⟩
  case read => exact handle_edge_of_answered hl hst rfl he
  case command => exact handle_edge_of_busy hl hst (hostAccess_command_of_busy w hst) he
  case write =>
    rw [handle_edge_of_answered hl hst (hostAccess_write_of_not_command w hno s) he, State.answerTo_write]

/-! ### The error record -/

/-- While `IDLE` with nothing outstanding, the sequencer's side can at most end a presentation (R10, R78). -/
theorem SeqMove.of_idle {s t : State} {e : SeqEvent} (m : SeqMove s e t) (hst : s.st = .idle) (hreq : s.req = none) :
    t = s ∨ t = s.taken := by
  cases m with
  | noTick | stray => exact .inl rfl
  | taken => exact .inr rfl
  | count h | waitOver h | compute h => cases hst.symm.trans h
  | coefOk _ hq | convOk _ hq | adcOk _ hq | setregOk _ hq | failed _ hq => cases hreq.symm.trans hq

/-- In a state that records an error, the command that took it is over (R27, R112). -/
theorem State.Inv.completed_of_err {s : State} (h : s.Inv) (herr : s.err = true) : s.completed :=
  ⟨h.doneIdle (h.errDone herr), h.errDone herr⟩

/-- Settles O44: the block is `IDLE` with nothing outstanding, where only a command write or a reset touches the
record. -/
theorem errorRecordStandsUntilAcceptance : Obligations.ErrorRecordStandsUntilAcceptance := by
  intro s t e hinv herr h hr hno
  obtain ⟨hst, hdone⟩ := hinv.completed_of_err herr
  have hreq : s.req = none := hinv.req_eq_none (by rw [hst]; rfl)
  rcases handle_cases_of_no_reset h hr with ⟨x, o, -, rfl⟩ | ⟨w, a, hw, -, -⟩ | ⟨q, u, x, o, -, m, rfl⟩
  · exact ⟨herr, hdone, rfl, rfl, hst⟩
  · exact absurd hw (hno w)
  · rcases m.of_idle hst hreq with rfl | rfl <;> exact ⟨herr, hdone, rfl, rfl, hst⟩

end Sys2Proof.Machine
end

section
/-! Proofs of the family `70_reset_and_hazards`: what an edge with `rst = 1` leaves and answers (R122, R123), and the
reserved codes that only such an edge leaves (I8). -/

namespace Sys2Proof.Machine

/-! ### The edge with `rst = 1` -/

/-- The answer to a read, by its legality as the `if` of R44 asks for it. -/
theorem State.answerTo_read (s : State) (off : Byte) (be : BitVec 4) :
    s.answerTo (.read off be) =
      if off.extractLsb' 0 2 ≠ 0 ∨ be ≠ 0b1111 then .data 0 true else .data (s.hostReg off) false := by
  have hill := HostAccess.legal_eq_false_iff (.read off be)
  rw [State.answerTo]
  cases hl : (HostAccess.read off be).legal with
  | false => exact (if_neg Bool.false_ne_true).trans (if_pos (hill.1 hl)).symm
  | true => exact (if_pos rfl).trans (if_neg fun h => Bool.false_ne_true ((hill.2 h).symm.trans hl)).symm

theorem State.cfgWord_eq_setWidth (s : State) : s.cfgWord = s.cfg.devAddr.setWidth 32 :=
  (BitVec.setWidth_eq_append (by decide)).symm

/-- In the reset state every register of the host map but `CFG` reads 0 (R41). -/
theorem State.hostReg_reset {off : Byte} (hcfg : off ≠ 0x10) : State.reset.hostReg off = 0 := by
  have hstatus : State.reset.statusWord = 0 := rfl
  have hpress : State.reset.press = 0 := rfl
  have htemp : State.reset.temp = 0 := rfl
  have hadc : State.reset.adcRawWord = 0 := rfl
  have hcoef0 : State.reset.coef0Word = 0 := rfl
  have hcoef1 : State.reset.coef1Word = 0 := rfl
  simp only [State.hostReg, hstatus, hpress, htemp, hadc, hcoef0, hcoef1, if_neg hcfg, ite_self]

/-- After a reset the host reads the reset values; `CFG` still shows the parameter (R32, R41, R122). -/
theorem State.hostReg_rst (s : State) (off : Byte) :
    s.rst.hostReg off = if off = 0x10 then s.cfg.devAddr.setWidth 32 else 0 := by
  by_cases hcfg : off = 0x10
  · subst hcfg
    exact s.rst.cfgWord_eq_setWidth
  · have hkeeps : s.rst.hostReg off = State.reset.hostReg off := by
      simp only [State.hostReg, if_neg hcfg]
      rfl
    rw [hkeeps, State.hostReg_reset hcfg, if_neg hcfg]

/-- Settles O2: without an access by definition; with one by the answer the reset state gives to it. -/
theorem resetEdgeGivesTheResetState : Obligations.ResetEdgeGivesTheResetState := by
  refine fun s => ⟨rfl, fun off data be => ?write, fun off be => ?read⟩
  case write =>
    rw [← s.rst.answerTo_write off data be]
    rfl
  case read =>
    rw [← s.hostReg_rst off, ← s.rst.answerTo_read off be]
    rfl

/-! ### The reserved codes -/

/-- What a state with a reserved code is (I8). -/
theorem State.codesLegal_eq_false_iff (s : State) :
    s.codesLegal = false ↔ s.st = .unused ∨ 4 < s.errcode ∨ 5 < s.errstage := by
  rw [← Bool.not_eq_true, s.codesLegal_iff, not_and_or, not_and_or, not_not, BitVec.not_le, BitVec.not_le]

/-- In a state with a reserved code nothing but a reset happens (I8). -/
theorem handle_of_reserved {s : State} {e : Event} (hl : s.codesLegal = false) (hr : e.isReset = false) :
    handle e s = .fault .reservedCode := by
  have hno : ¬ s.codesLegal = true := by rw [hl]; exact Bool.false_ne_true
  cases e with
  | host a | seq q | edge a q => exact if_neg hno
  | rst a => cases hr

/-- A reset leaves no reserved code, whatever the state held (R122). -/
theorem resetEdge_codesLegal (a : Option HostAccess) (s : State) : (resetEdge a s).codesLegal = true := by
  obtain ⟨x, hx⟩ := handle_rst_cases (a := a) (s := s) rfl
  rw [hx]
  exact (State.codesLegal_iff _).2 ⟨SeqState.noConfusion, Nat.zero_le _, Nat.zero_le _⟩

/-- Settles O41: the guard of every event but a reset fails; a reset has no guard. -/
theorem reservedCodesStopUntilReset : Obligations.ReservedCodesStopUntilReset :=
  ⟨fun s _ hcode hr => handle_of_reserved (s.codesLegal_eq_false_iff.2 hcode) hr,
    fun s a => ⟨resetEdge a s, rfl, resetEdge_codesLegal a s⟩⟩

end Sys2Proof.Machine
end
